-- ==== Sys2Proof/Word.lean ====
section
/-! DEFINITION. The words of the block: the byte (00_scope R11) and the 12-bit operation word
(30_encoding R80). All values are unsigned, bit 0 is the least significant (00_scope R15). -/

namespace Sys2Proof

/-- A byte, `BW = 8` bits (R11). -/
abbrev Byte := BitVec 8

/-- An operation word `OW[11:0]` (R80, R92: there is one length). -/
abbrev OpWord := BitVec 12

end Sys2Proof
end

