-- ==== Sys2Proof/Syntax.lean ====
section
/-! DEFINITION. The seven operations (30_encoding R82), the two contexts that issue them (60_exceptions R177) and
the status codes of responses (30_encoding R88). -/

namespace Sys2Proof

/-- The two execution contexts (R177), and with them the two ports of R95 on which a word is decoded. -/
inductive Context where
  /-- Normal program execution: issues TXENQ, RXDEQ, RDTXC, RDRXC and SETUP through the command port. -/
  | foreground
  /-- The interrupt context: performs RXEVT and TXEVT and nothing else. -/
  | event
  deriving DecidableEq, Repr

/-- One constructor per row of spec/opcode_table.json. -/
inductive Instr where
  /-- TXENQ: enqueue a byte for transmission (R100). -/
  | txenq (b : Byte)
  /-- RXDEQ: dequeue the oldest received byte (R105). -/
  | rxdeq
  /-- RDTXC: read the transmit counter (R146). -/
  | rdtxc
  /-- RDRXC: read the receive counter (R147). -/
  | rdrxc
  /-- SETUP: port setup (R140). -/
  | setup
  /-- RXEVT: receive path of the handler, with the byte `HwReadRx()` returned (R121). -/
  | rxevt (b : Byte)
  /-- TXEVT: transmit path of the handler (R125). -/
  | txevt
  deriving DecidableEq, Repr

/-- The context that performs an operation (R82, R177). -/
def Instr.context : Instr → Context
  | .txenq _ => .foreground
  | .rxdeq => .foreground
  | .rdtxc => .foreground
  | .rdrxc => .foreground
  | .setup => .foreground
  | .rxevt _ => .event
  | .txevt => .event

/-- The status of a response (30_encoding R88). -/
inductive Status where
  | ok
  | full
  | empty
  | illegal
  deriving DecidableEq, Repr

/-- A response before it is laid out as a word: status and data (30_encoding R87, R89). -/
structure Response where
  st : Status
  data : Nat
  deriving DecidableEq, Repr

end Sys2Proof
end

