-- ==== Sys2Proof/Decode.lean ====
section
/-! DEFINITION. Decoding of operation words (30_encoding R80 to R86, R95), rejecting by name, and the encoder. -/

namespace Sys2Proof

/-- Field `opc = OW[11:8]` (R80). -/
def opc (w : OpWord) : BitVec 4 := w.extractLsb' 8 4

/-- Field `dat = OW[7:0]` (R80, R83: taken as it is). -/
def dat (w : OpWord) : Byte := w.extractLsb' 0 8

/-- The context bit `OW[11]`: 0 names a foreground operation, 1 an event operation (R81). -/
def contextOf (w : OpWord) : Context := if w.getLsbD 11 then .event else .foreground

/-- Why a word names no operation on a port. -/
inductive DecodeError where
  /-- `opc` 0x0, 0x6, 0x7 on the foreground port, 0xA to 0xF among the event words (R82, R85). -/
  | reservedOpcode
  /-- An operation without an operand with `dat` not 0x00 (R84, R85). -/
  | operandNotZero
  /-- A word with `OW[11] = 1` on the foreground port (R86). -/
  | eventWordOnForegroundPort
  /-- A word with `OW[11] = 0` as an event label: the event agent produces none (R85). -/
  | foregroundWordAsEvent
  deriving DecidableEq, Repr

/-- Why `decode_fg` takes a word for Illegal (R85, R86). -/
def reasonFg (w : OpWord) : DecodeError :=
  if contextOf w = .event then .eventWordOnForegroundPort
  else if opc w = 0x0#4 ∨ opc w = 0x6#4 ∨ opc w = 0x7#4 then .reservedOpcode
  else .operandNotZero

/-- `decode_fg` (R95). -/
def decodeFg (w : OpWord) : Except DecodeError Instr :=
  if opc w = 0x1#4 then .ok (.txenq (dat w))
  else if w = 0x200#12 then .ok .rxdeq
  else if w = 0x300#12 then .ok .rdtxc
  else if w = 0x400#12 then .ok .rdrxc
  else if w = 0x500#12 then .ok .setup
  else .error (reasonFg w)

/-- Why `decode_ev` takes a word for Illegal (R85). -/
def reasonEv (w : OpWord) : DecodeError :=
  if contextOf w = .foreground then .foregroundWordAsEvent
  else if opc w = 0x9#4 then .operandNotZero
  else .reservedOpcode

/-- `decode_ev` (R95). -/
def decodeEv (w : OpWord) : Except DecodeError Instr :=
  if opc w = 0x8#4 then .ok (.rxevt (dat w))
  else if w = 0x900#12 then .ok .txevt
  else .error (reasonEv w)

/-- Decode is a total function of the port and the word (R95). -/
def decode (c : Context) (w : OpWord) : Except DecodeError Instr :=
  match c with
  | .foreground => decodeFg w
  | .event => decodeEv w

/-- The operation code of an operation (R82). -/
def Instr.opcode : Instr → BitVec 4
  | .txenq _ => 0x1#4
  | .rxdeq => 0x2#4
  | .rdtxc => 0x3#4
  | .rdrxc => 0x4#4
  | .setup => 0x5#4
  | .rxevt _ => 0x8#4
  | .txevt => 0x9#4

/-- The `dat` field of an operation's word: its byte operand, or zero (R83, R84). -/
def Instr.operand : Instr → Byte
  | .txenq b => b
  | .rxdeq => 0x00#8
  | .rdtxc => 0x00#8
  | .rdrxc => 0x00#8
  | .setup => 0x00#8
  | .rxevt b => b
  | .txevt => 0x00#8

/-- `encode`: the operation word, `opc` in the high bits and `dat` in the low (R80, R95). -/
def encode (i : Instr) : OpWord := i.opcode ++ i.operand

/-- A row of the opcode table as R82 gives it: a word selects the row when `(w AND mask) = match`. -/
def Instr.row : Instr → OpWord × OpWord
  | .txenq _ => (0x100#12, 0xF00#12)
  | .rxdeq => (0x200#12, 0xFFF#12)
  | .rdtxc => (0x300#12, 0xFFF#12)
  | .rdrxc => (0x400#12, 0xFFF#12)
  | .setup => (0x500#12, 0xFFF#12)
  | .rxevt _ => (0x800#12, 0xF00#12)
  | .txevt => (0x900#12, 0xFFF#12)

/-- The operation the decoder reads from a word numbered as spec/opcode_table.json numbers it, on the port its
context bit names (R81). A word is 12 bits (R92): bits above bit 11 name none. -/
def decodeTableWord (nbits w : Nat) : Option Instr :=
  let v := w % 2 ^ nbits
  if v < 2 ^ 12 then (decode (contextOf (BitVec.ofNat 12 v)) (BitVec.ofNat 12 v)).toOption else none

end Sys2Proof
end

