-- ==== Sys2Proof/Config.lean ====
section
/-! DEFINITION. The build-time parameters (00_scope R7 to R14) and the free values. -/

namespace Sys2Proof

/-- `div_of` of R14, an open parameter of the hardware layer (decision D17), as plain data. -/
inductive DivRule where
  /-- The spec's default: the integer quotient `F_CLK / BAUD`. -/
  | quotient
  /-- The platform's own rounding or prescaling gives this divisor for the configured clock and bit rate. -/
  | given (div : Nat)
  deriving DecidableEq, Repr

/-- The parameters of one instance of the block. They are compile-time constants (R9): no step changes them.
State carries them so that a statement holds for every well-formed choice (assumption 1). -/
structure Config where
  /-- `RCAP`: slots of the receive buffer (R7). -/
  rcap : Nat
  /-- `TCAP`: slots of the transmit buffer (R8). -/
  tcap : Nat
  /-- `CW`: bits of each counter (R13). -/
  cw : Nat
  /-- `F_CLK`: clock frequency of the hardware layer (R14). -/
  fClk : Nat
  /-- `BAUD`: bit rate of the hardware layer (R14). -/
  baud : Nat
  /-- `DIVW`: width in bits of the divisor register (R14). -/
  divw : Nat
  /-- `div_of` (R14). -/
  divRule : DivRule
  deriving DecidableEq, Repr

/-- The spec's defaults `RCAP = 16`, `TCAP = 128`, `CW = 32` (R7, R8, R13). The spec gives no default for the
hardware layer: the smallest values that pass the check stand here (DESIGN CHOICE, assumption 2), and no rule of
the running block reads them (R14). -/
def Config.default : Config where
  rcap := 16
  tcap := 128
  cw := 32
  fClk := 1
  baud := 1
  divw := 1
  divRule := .quotient

/-- `DIV = div_of(F_CLK, BAUD)` (R14). -/
def Config.div (c : Config) : Nat :=
  match c.divRule with
  | .quotient => c.fClk / c.baud
  | .given d => d

/-- `DW = max(CW, BW)`: width of the response's data field (30_encoding R87). -/
def Config.dw (c : Config) : Nat := max c.cw 8

/-- The least `k ≤ n` with `n ≤ 2^k`, that is `ceil(log2 n)` for `n ≥ 1` (R12). -/
def ceilLog2 (n : Nat) : Nat := ((List.range n).find? fun k => decide (n ≤ 2 ^ k)).getD n

/-- `IWR = max(1, ceil(log2(RCAP)))`: width of `rx_head` and `rx_tail` (R12). -/
def Config.iwr (c : Config) : Nat := max 1 (ceilLog2 c.rcap)

/-- `IWT = max(1, ceil(log2(TCAP)))`: width of `tx_head` and `tx_tail` (R12). -/
def Config.iwt (c : Config) : Nat := max 1 (ceilLog2 c.tcap)

/-- The two buffers of the block (20_memory R50). -/
inductive BufferId where
  | rx
  | tx
  deriving DecidableEq, Repr

/-- The byte a slot holds that nothing has written since the last hardware reset: unspecified (10_state R43,
93 U1). A free value without a body: nothing can be proved of it. Arguments: the buffer, how many hardware resets
there have been (`State.epoch`), the slot (assumption 3). -/
opaque Config.unspecifiedByte : BufferId → Nat → Nat → Byte

end Sys2Proof
end

