-- ==== Sys2Proof/WellFormed.lean ====
section
/-! DEFINITION. What is well formed: an operation on the port it is issued on (30_encoding R86, 60_exceptions
R177), and a configuration (00_scope R7, R8, R13, R14). -/

namespace Sys2Proof

/-- An operation is well formed on a port when the port's context may issue it: no handler path on the foreground
port (R86), no foreground operation in the event context (R177). Operands need no check: all 256 values of a byte
are legal data (R83) and the other operations have none (R84). -/
def Instr.wellFormedOn (c : Context) (i : Instr) : Bool := i.context == c

/-- `RCAP >= 2` and `TCAP >= 2` (R7, R8, R10). -/
def Config.capacitiesOk (c : Config) : Bool := decide (2 ≤ c.rcap) && decide (2 ≤ c.tcap)

/-- `CW >= 1` (R13). -/
def Config.counterWidthOk (c : Config) : Bool := decide (1 ≤ c.cw)

/-- `DIV < 2^DIVW` (R14), and the default quotient is only taken with a bit rate that is not zero (DEDUCED,
assumption 2: a division by zero gives no divisor). -/
def Config.divisorOk (c : Config) : Bool :=
  decide (c.div < 2 ^ c.divw) && (decide (c.divRule ≠ .quotient) || decide (c.baud ≠ 0))

/-- The configuration check, made when the instance is built: an ill-formed configuration yields no instance
(R14, 60_exceptions R163). -/
def Config.wf (c : Config) : Bool := c.capacitiesOk && c.counterWidthOk && c.divisorOk

end Sys2Proof
end

