-- ==== Sys2Proof/Machine/State.lean ====
section
/-! DEFINITION. The state of the block (10_state), its input pins and output strobes (30_encoding R90, R91), the
reasons a step can stop, and the state after hardware reset (10_state R42, 70_reset R190). -/

namespace Sys2Proof.Machine

/-- The slots of one buffer that hold a written byte: (slot, byte) pairs, slots strictly rising. A slot that is not
listed has not been written since the last hardware reset and reads as a free value (10_state R43, assumption 3),
so no listed byte can equal it and a write only ever adds or replaces an entry. -/
abbrev Memory := List Host.Cell

/-- TXENQ in flight: the label of the next micro-step with the locals held then (10_state R36, R37;
40_foreground_ops R100). -/
inductive TxenqAt where
  | e1 (b : Byte)
  | e2 (b : Byte) (h next : Nat)
  | e3 (b : Byte) (h next t : Nat)
  | e4 (b : Byte) (h next t : Nat)
  | e5 (b : Byte) (h next t : Nat)
  deriving DecidableEq, Repr

/-- RXDEQ in flight: the label of the next micro-step with the locals held then (R36, R37; R105). -/
inductive RxdeqAt where
  | q1
  | q2 (t : Nat)
  | q3 (t h : Nat)
  | q4 (t h : Nat) (v : Byte)
  deriving DecidableEq, Repr

/-- The accepted foreground operation: `op`, `point` and `locals` of `Busy(op, point, locals)` (R36). RDTXC and
RDRXC stand at C1, SETUP at S1. -/
inductive Flight where
  | txenq (p : TxenqAt)
  | rxdeq (p : RxdeqAt)
  | rdtxc
  | rdrxc
  | setup
  deriving DecidableEq, Repr

/-- The foreground sequencer `fg` (R36). -/
inductive Fg where
  | idle
  | busy (f : Flight)
  deriving DecidableEq, Repr

/-- Which agent the scheduler lets move in a step (00_scope R18, 20_memory R62, R63, 60_exceptions R173). -/
inductive Turn where
  | foreground
  | rxEvent
  | txEvent
  deriving DecidableEq, Repr

/-- What the world outside offers in one step: the input pins (30_encoding R90, R91, 10_state R38) and the
scheduler's choice (70_reset R212). -/
structure Inputs where
  /-- `rst` (70_reset R190). -/
  rst : Bool
  /-- `fg_valid` with `fg_cmd[11:0]`: the word the foreground master presents. -/
  fgCmd : Option OpWord
  /-- `rx_avail` with `rx_data[7:0]`. -/
  rxAvail : Option Byte
  /-- `tx_ready`. -/
  txReady : Bool
  /-- The agent that moves. -/
  turn : Turn
  deriving DecidableEq, Repr

/-- Nothing is offered and the foreground agent may move: what a step reads when `State.inputs` is at its end
(assumption 4). -/
def Inputs.quiet : Inputs where
  rst := false
  fgCmd := none
  rxAvail := none
  txReady := false
  turn := .foreground

/-- The output strobes, each active for the one step that drives it (30_encoding R90, R91). -/
structure Strobes where
  /-- `fg_rsp_valid` with `fg_rsp`. -/
  fgRsp : Option Response
  /-- `rx_rd`: the block performs `HwReadRx`. -/
  rxRd : Bool
  /-- `tx_wr` with `tx_data`: the block performs `HwWriteTx`. -/
  txWr : Option Byte
  /-- `cfg_strobe`: the block performs `HwConfigure`. -/
  cfgStrobe : Bool
  /-- `ev_valid` with `ev_code`: the word of the event operation performed (R81). -/
  evCode : Option OpWord
  deriving DecidableEq, Repr

/-- No strobe is active. -/
def Strobes.quiet : Strobes where
  fgRsp := none
  rxRd := false
  txWr := none
  cfgStrobe := false
  evCode := none

/-- The state: the Queue State of 10_state R20 with the enables and the sequencer, the ghost traces of R39, and the
model's own fields `out`, `inputs`, `epoch` and `cfg` (assumptions 7, 4, 3 and 1). -/
structure State where
  /-- `rx_buf`: written slots of the receive buffer (R21). -/
  rxBuf : Memory
  /-- `tx_buf`: written slots of the transmit buffer (R22). -/
  txBuf : Memory
  /-- `rx_head`: the slot the next received byte is stored in (R23). -/
  rxHead : Nat
  /-- `rx_tail`: the slot of the oldest byte not yet dequeued (R23). -/
  rxTail : Nat
  /-- `tx_head`: the slot the next enqueued byte is stored in (R24). -/
  txHead : Nat
  /-- `tx_tail`: the slot of the oldest byte not yet handed to the hardware (R24). -/
  txTail : Nat
  /-- `rx_count`: RXEVTs since the last SETUP or reset, modulo `2^CW` (R30). -/
  rxCount : Nat
  /-- `tx_count`: TXEVTs since the last SETUP or reset, modulo `2^CW` (R31). -/
  txCount : Nat
  /-- `rxie`: receive-interrupt enable (R33). -/
  rxie : Bool
  /-- `txie`: transmitter-ready interrupt enable (R34). -/
  txie : Bool
  /-- `fg`: the foreground sequencer (R36). -/
  fg : Fg
  /-- Ghost `tx_out`: bytes passed to `HwWriteTx`, oldest first (R39). -/
  txOut : List Byte
  /-- Ghost `rx_in`: bytes returned by `HwReadRx`, oldest first (R39). -/
  rxIn : List Byte
  /-- Ghost `rsp`: operation words answered on the foreground port with their responses, oldest first (R39). -/
  rsp : List (OpWord × Response)
  /-- The output strobes of the latest step. -/
  out : Strobes
  /-- What the world outside offers in the steps to come, next first. -/
  inputs : List Inputs
  /-- How many hardware resets there have been: argument of the free buffer bytes. -/
  epoch : Nat
  /-- The build-time parameters (00_scope R7 to R14). -/
  cfg : Config
  deriving DecidableEq, Repr

/-- The block raises no trap, fault or abort (60_exceptions R160): there is no fault. -/
inductive Fault where
  deriving DecidableEq, Repr

/-- Why a step has no meaning. -/
inductive Refusal where
  /-- An instruction without a meaning yet: no arm of `exec` answers it. Safe. -/
  | notModelled (mnemonic : String)
  /-- A buffer access with an index at or above the capacity, which the spec treats as `refuse` (20_memory R55,
  93 U4). Raised by TXENQ at E3, RXDEQ at Q3, RXEVT and TXEVT, in states no run reaches. Safe. -/
  | indexOutOfRange
  /-- The configuration fails its check, so there is no instance to run (60_exceptions R163, 93 U5, U7). Raised by
  `step`. Safe. -/
  | configOutOfRange
  deriving DecidableEq, Repr

/-- The block right after hardware reset (10_state R42, 70_reset R190), with the default configuration and nothing
offered from outside. -/
def State.reset : State where
  rxBuf := []
  txBuf := []
  rxHead := 0
  rxTail := 0
  txHead := 0
  txTail := 0
  rxCount := 0
  txCount := 0
  rxie := false
  txie := false
  fg := .idle
  txOut := []
  rxIn := []
  rsp := []
  out := Strobes.quiet
  inputs := []
  epoch := 0
  cfg := Config.default

/-- The step kinds of 20_memory R62, and `hold` for a step in which the agent that was let move has no enabled step
(assumption 6). -/
inductive StepKind where
  | fgAccept (w : OpWord)
  | fgStep
  | evRx (b : Byte)
  | evTx
  | reset
  | hold
  deriving DecidableEq, Repr

end Sys2Proof.Machine
end

