-- ==== Sys2Proof/Machine/Operands.lean ====
section
/-! DEFINITION. The operand forms: index and counter advance (00_scope R16), slots selected by an index register
(20_memory R51, R52), levels and live regions (10_state R28, R44), response data and the response word
(30_encoding R87 to R89). -/

namespace Sys2Proof.Machine

/-- `inc_N(i) = (i + 1) mod N` (R16). -/
def inc (n i : Nat) : Nat := (i + 1) % n

/-- Counter advance `(c + 1) mod 2^CW` (R16). -/
def countUp (cw c : Nat) : Nat := (c + 1) % 2 ^ cw

/-- The number of bytes a buffer of capacity `n` holds: `(head - tail) mod n` (R28), for indices in range. -/
def level (n head tail : Nat) : Nat := (head + n - tail) % n

/-- The live region as slots, oldest byte first: `tail`, `inc_N(tail)`, ... up to but not including `head`
(R44). -/
def liveSlots (n head tail : Nat) : List Nat := (List.range (level n head tail)).map fun k => (tail + k) % n

/-- Slots strictly rising: the canonical form of a buffer's written slots. -/
abbrev Memory.wf (m : Memory) : Prop := (m.map Prod.fst).Pairwise (· < ·)

/-- The byte last written to a slot since hardware reset, if any. -/
def Memory.slot? : Memory → Nat → Option Byte
  | [], _ => none
  | (j, v) :: m, i => if i = j then some v else slot? m i

/-- A buffer with `v` written to slot `i`. -/
def Memory.store : Memory → Nat → Byte → Memory
  | [], i, v => [(i, v)]
  | (j, w) :: m, i, v =>
    if i < j then (i, v) :: (j, w) :: m
    else if i = j then (i, v) :: m
    else (j, w) :: store m i v

/-- What a slot holds: the byte last written, or an unspecified byte (20_memory R52, 10_state R43). -/
def Memory.byteAt (m : Memory) (id : BufferId) (epoch i : Nat) : Byte :=
  (m.slot? i).getD (Config.unspecifiedByte id epoch i)

/-- What slot `i` of the receive buffer holds. -/
def State.rxSlot (s : State) (i : Nat) : Byte := s.rxBuf.byteAt .rx s.epoch i

/-- What slot `i` of the transmit buffer holds. -/
def State.txSlot (s : State) (i : Nat) : Byte := s.txBuf.byteAt .tx s.epoch i

/-- `rx_level` (R28). -/
def State.rxLevel (s : State) : Nat := level s.cfg.rcap s.rxHead s.rxTail

/-- `tx_level` (R28). -/
def State.txLevel (s : State) : Nat := level s.cfg.tcap s.txHead s.txTail

/-- The bytes of the receive buffer's live region, oldest first (R44). -/
def State.rxLive (s : State) : List Byte := (liveSlots s.cfg.rcap s.rxHead s.rxTail).map s.rxSlot

/-- The bytes of the transmit buffer's live region, oldest first (R44). -/
def State.txLive (s : State) : List Byte := (liveSlots s.cfg.tcap s.txHead s.txTail).map s.txSlot

/-- `zext_DW` of a byte, as a number (30_encoding R89, 00_scope R15): no sign extension. -/
def zextByte (v : Byte) : Nat := v.toNat

/-- The code of a status (30_encoding R88). -/
def statusCode : Status → BitVec 2
  | .ok => 0b00#2
  | .full => 0b01#2
  | .empty => 0b10#2
  | .illegal => 0b11#2

/-- The response word `RW[DW+1:0]`: `st` in the two high bits, `data` below (R87). -/
def responseWord (c : Config) (r : Response) : BitVec (2 + c.dw) := statusCode r.st ++ BitVec.ofNat c.dw r.data

/-- The operation in flight (10_state R36). -/
def Flight.op : Flight → Instr
  | .txenq (.e1 b) => .txenq b
  | .txenq (.e2 b _ _) => .txenq b
  | .txenq (.e3 b _ _ _) => .txenq b
  | .txenq (.e4 b _ _ _) => .txenq b
  | .txenq (.e5 b _ _ _) => .txenq b
  | .rxdeq _ => .rxdeq
  | .rdtxc => .rdtxc
  | .rdrxc => .rdrxc
  | .setup => .setup

/-- How many micro-steps the operation in flight can still take before it has responded (00_scope R19: at most five
for TXENQ, four for RXDEQ, one for the others). -/
def Flight.remaining : Flight → Nat
  | .txenq (.e1 _) => 5
  | .txenq (.e2 _ _ _) => 4
  | .txenq (.e3 _ _ _ _) => 3
  | .txenq (.e4 _ _ _ _) => 2
  | .txenq (.e5 _ _ _ _) => 1
  | .rxdeq .q1 => 4
  | .rxdeq (.q2 _) => 3
  | .rxdeq (.q3 _ _) => 2
  | .rxdeq (.q4 _ _ _) => 1
  | .rdtxc => 1
  | .rdrxc => 1
  | .setup => 1

/-- The same for the sequencer: none when it is idle. -/
def Fg.remaining : Fg → Nat
  | .idle => 0
  | .busy f => f.remaining

end Sys2Proof.Machine
end

