-- ==== Sys2Proof/Machine/Flags.lean ====
section
/-! DEFINITION. The flag conditions (10_state R26, R27, R35), the interrupt gating equations (60_exceptions R170)
and the output pins (30_encoding R90, R91): pure functions of the state and the input pins. -/

namespace Sys2Proof.Machine

/-- `rx_empty` (R26). -/
def State.rxEmpty (s : State) : Bool := s.rxHead == s.rxTail

/-- `tx_empty` (R26). -/
def State.txEmpty (s : State) : Bool := s.txHead == s.txTail

/-- `rx_full` (R27). -/
def State.rxFull (s : State) : Bool := inc s.cfg.rcap s.rxHead == s.rxTail

/-- `tx_full` (R27). -/
def State.txFull (s : State) : Bool := inc s.cfg.tcap s.txHead == s.txTail

/-- `fg_ready = 1` exactly when `fg = Idle` (R90). -/
def State.fgReady (s : State) : Bool := s.fg == .idle

/-- `irq_rx = rxie AND rx_avail` (R170). -/
def irqRx (s : State) (x : Inputs) : Bool := s.rxie && x.rxAvail.isSome

/-- `irq_tx = txie AND tx_ready` (R170). -/
def irqTx (s : State) (x : Inputs) : Bool := s.txie && x.txReady

/-- The output pins of the block (R35, R90, R91): levels from the state and the present inputs, strobes from the
latest step. `tx_data`, `fg_rsp` and `ev_code` are `none` where their valid pin is 0. -/
structure Pins (c : Config) where
  fgReady : Bool
  fgRsp : Option (BitVec (2 + c.dw))
  rxRd : Bool
  txWr : Option Byte
  rxie : Bool
  txie : Bool
  irqRx : Bool
  irqTx : Bool
  cfgStrobe : Bool
  evCode : Option OpWord
  rxEmpty : Bool
  rxFull : Bool
  txEmpty : Bool
  txFull : Bool
  deriving DecidableEq, Repr

/-- The pins the block drives in state `s` when the inputs are `x`. -/
def State.pins (s : State) (x : Inputs) : Pins s.cfg where
  fgReady := s.fgReady
  fgRsp := s.out.fgRsp.map (responseWord s.cfg)
  rxRd := s.out.rxRd
  txWr := s.out.txWr
  rxie := s.rxie
  txie := s.txie
  irqRx := Machine.irqRx s x
  irqTx := Machine.irqTx s x
  cfgStrobe := s.out.cfgStrobe
  evCode := s.out.evCode
  rxEmpty := s.rxEmpty
  rxFull := s.rxFull
  txEmpty := s.txEmpty
  txFull := s.txFull

end Sys2Proof.Machine
end

