-- ==== Sys2Proof/Machine/Ops.lean ====
section
/-! DEFINITION. The named operations of the pseudocode (00_scope R17): buffer access, hardware-layer access,
`respond`, acceptance of a foreground operation, entry to and return from the handler, hardware reset. -/

namespace Sys2Proof.Machine

/-- `BufRead(buf, i)` (20_memory R52): an index outside the buffer is refused (R55). -/
def bufRead (id : BufferId) (cap epoch : Nat) (m : Memory) (i : Nat) : Except Refusal Byte :=
  if i < cap then .ok (m.byteAt id epoch i) else .error .indexOutOfRange

/-- `BufWrite(buf, i, v)` (20_memory R52): an index outside the buffer is refused (R55). -/
def bufWrite (cap : Nat) (m : Memory) (i : Nat) (v : Byte) : Except Refusal Memory :=
  if i < cap then .ok (m.store i v) else .error .indexOutOfRange

/-- `BufRead(rx_buf, i)`. -/
def State.readRx (s : State) (i : Nat) : Except Refusal Byte := bufRead .rx s.cfg.rcap s.epoch s.rxBuf i

/-- `BufRead(tx_buf, i)`. -/
def State.readTx (s : State) (i : Nat) : Except Refusal Byte := bufRead .tx s.cfg.tcap s.epoch s.txBuf i

/-- `BufWrite(rx_buf, i, v)`. -/
def State.writeRx (s : State) (i : Nat) (v : Byte) : Except Refusal State :=
  (bufWrite s.cfg.rcap s.rxBuf i v).map fun m => { s with rxBuf := m }

/-- `BufWrite(tx_buf, i, v)`. -/
def State.writeTx (s : State) (i : Nat) (v : Byte) : Except Refusal State :=
  (bufWrite s.cfg.tcap s.txBuf i v).map fun m => { s with txBuf := m }

/-- Go on with the value of a buffer access, or stop where the access is refused. -/
def afterAccess {α : Type} (r : Except Refusal α) (k : α → Host.Outcome State Fault Refusal) :
    Host.Outcome State Fault Refusal :=
  match r with
  | .ok v => k v
  | .error e => .refused e

/-- `HwReadRx()` returning `b`: appended to `rx_in`, `rx_rd` strobed (20_memory R60). -/
def State.hwReadRx (b : Byte) (s : State) : State :=
  { s with rxIn := s.rxIn ++ [b], out := { s.out with rxRd := true } }

/-- `HwWriteTx(v)`: appended to `tx_out`, `tx_wr` strobed with `tx_data = v` (20_memory R61). -/
def State.hwWriteTx (v : Byte) (s : State) : State :=
  { s with txOut := s.txOut ++ [v], out := { s.out with txWr := some v } }

/-- `HwConfigure()`: `cfg_strobe`, with no effect on the state record (42_setup_diag_ops R145). -/
def State.hwConfigure (s : State) : State := { s with out := { s.out with cfgStrobe := true } }

/-- The sequencer set to a state. -/
def State.setFg (f : Fg) (s : State) : State := { s with fg := f }

/-- `respond(st, data)` for the operation word `w`: the response is emitted and the sequencer returns to idle
(R17, 30_encoding R87, R90). -/
def State.respond (w : OpWord) (st : Status) (data : Nat) (s : State) : State :=
  { s with
    fg := .idle
    rsp := s.rsp ++ [(w, ⟨st, data⟩)]
    out := { s.out with fgRsp := some ⟨st, data⟩ } }

/-- A foreground operation as its port sees it (30_encoding R90, 10_state R36): `Idle` accepts it and stands at its
first micro-step `start`; while it is in flight its own next micro-step `micro` is performed; while another is in
flight the port accepts nothing and the word waits (20_memory R72, assumption 5). -/
def foregroundOp (i : Instr) (start : Flight) (micro : Flight → Host.Outcome State Fault Refusal) (s : State) :
    Host.Outcome State Fault Refusal :=
  match s.fg with
  | .idle => .next (s.setFg (.busy start))
  | .busy f => if f.op = i then micro f else .next s

/-- Handler entry (60_exceptions R174): it saves nothing and changes no field of the record; the event's word is
shown on `ev_code` (30_encoding R91). There is no vector, stack, mode bit or mask. -/
def State.enterHandler (i : Instr) (s : State) : State := { s with out := { s.out with evCode := some (encode i) } }

/-- Return from the handler (60_exceptions R175): nothing is restored because nothing was saved; the foreground
resumes at `fg`. -/
def State.leaveHandler (s : State) : State := s

/-- The whole effect of an event operation: entry, the path's body, return (R174, R175). The body is one atomic
step (20_memory R63). -/
def eventOp (i : Instr) (body : State → Host.Outcome State Fault Refusal) (s : State) :
    Host.Outcome State Fault Refusal :=
  match body (s.enterHandler i) with
  | .next t => .next t.leaveHandler
  | .fault r => .fault r
  | .refused r => .refused r

/-- What is offered in the next step (assumption 4). -/
def State.input (s : State) : Inputs := s.inputs.headD Inputs.quiet

/-- A step begins: its inputs are taken and no strobe is active yet. -/
def State.beginStep (s : State) : State := { s with inputs := s.inputs.tail, out := Strobes.quiet }

/-- Hardware reset (70_reset R190, 10_state R42): every field takes its reset value, buffer contents are unspecified
anew, an operation in flight is abandoned without a response. The configuration is a build-time constant and the
inputs belong to the world outside: both stay. -/
def State.hardReset (s : State) : State :=
  { State.reset with inputs := s.inputs, epoch := s.epoch + 1, cfg := s.cfg }

end Sys2Proof.Machine
end

