-- ==== Sys2Proof/Machine/Events.lean ====
section
/-! DEFINITION. The event operations RXEVT and TXEVT (41_event_ops), each one atomic step. When an event operation
is enabled is decided where events are invoked, in Sys2Proof/Machine/Agents.lean (60_exceptions R170). -/

namespace Sys2Proof.Machine

/-- One more receive event counted (R123). -/
def State.countRx (s : State) : State := { s with rxCount := countUp s.cfg.cw s.rxCount }

/-- One more transmit event counted (R127). -/
def State.countTx (s : State) : State := { s with txCount := countUp s.cfg.cw s.txCount }

/-- The body of RXEVT after the hardware register has been read (R121, R122): the byte is stored and the head
published, or, the buffer being full, dropped silently; counted either way (R123). -/
def rxevtStore (b : Byte) (s : State) : Host.Outcome State Fault Refusal :=
  let next := inc s.cfg.rcap s.rxHead
  if next = s.rxTail then .next s.countRx
  else afterAccess (s.writeRx s.rxHead b) fun s' => .next { s' with rxHead := next }.countRx

/-- RXEVT `b` (R121): the hardware register is read exactly once, first, on both branches (R124). -/
def execRxevt (b : Byte) (s : State) : Host.Outcome State Fault Refusal :=
  eventOp (.rxevt b) (fun s' => rxevtStore b (s'.hwReadRx b)) s

/-- The body of TXEVT (R125): the oldest byte is handed to the hardware and the tail published, or, the buffer being
empty, "transmitter ready" is disarmed (R126); counted either way (R127). -/
def txevtSend (s : State) : Host.Outcome State Fault Refusal :=
  if s.txTail = s.txHead then .next { s with txie := false }.countTx
  else
    afterAccess (s.readTx s.txTail) fun v =>
      .next { s.hwWriteTx v with txTail := inc s.cfg.tcap s.txTail }.countTx

/-- TXEVT (R125). -/
def execTxevt (s : State) : Host.Outcome State Fault Refusal := eventOp .txevt txevtSend s

end Sys2Proof.Machine
end

