-- ==== Sys2Proof/Machine/Foreground.lean ====
section
/-! DEFINITION. The foreground data-path operations TXENQ and RXDEQ (40_foreground_ops). -/

namespace Sys2Proof.Machine

/-- Step E1 of TXENQ (R100): the own index and its successor. -/
def txenqE1 (b : Byte) (s : State) : Host.Outcome State Fault Refusal :=
  .next (s.setFg (.busy (.txenq (.e2 b s.txHead (inc s.cfg.tcap s.txHead)))))

/-- Step E2 of TXENQ (R100, R101): snapshot of the consumer's index; FULL ends the operation here. -/
def txenqE2 (b : Byte) (h next : Nat) (s : State) : Host.Outcome State Fault Refusal :=
  if next = s.txTail then .next (s.respond (encode (.txenq b)) .full 0)
  else .next (s.setFg (.busy (.txenq (.e3 b h next s.txTail))))

/-- Step E3 of TXENQ (R100): the byte is stored in the slot at head. -/
def txenqE3 (b : Byte) (h next t : Nat) (s : State) : Host.Outcome State Fault Refusal :=
  afterAccess (s.writeTx h b) fun s' => .next (s'.setFg (.busy (.txenq (.e4 b h next t))))

/-- Step E4 of TXENQ (R100, R102): the head is published, only after E3. -/
def txenqE4 (b : Byte) (h next t : Nat) (s : State) : Host.Outcome State Fault Refusal :=
  .next ({ s with txHead := next }.setFg (.busy (.txenq (.e5 b h next t))))

/-- Step E5 of TXENQ (R100, R103): "transmitter ready" is armed and the operation answers OK. -/
def txenqE5 (b : Byte) (s : State) : Host.Outcome State Fault Refusal :=
  .next ({ s with txie := true }.respond (encode (.txenq b)) .ok 0)

/-- The micro-step of TXENQ in flight (R100). -/
def txenqMicro (p : TxenqAt) (s : State) : Host.Outcome State Fault Refusal :=
  match p with
  | .e1 b => txenqE1 b s
  | .e2 b h next => txenqE2 b h next s
  | .e3 b h next t => txenqE3 b h next t s
  | .e4 b h next t => txenqE4 b h next t s
  | .e5 b _ _ _ => txenqE5 b s

/-- TXENQ `b` (R100): accepted when the sequencer is idle, else its next micro-step. -/
def execTxenq (b : Byte) (s : State) : Host.Outcome State Fault Refusal :=
  foregroundOp (.txenq b) (.txenq (.e1 b))
    (fun f =>
      match f with
      | .txenq p => txenqMicro p s
      | .rxdeq _ => .next s
      | .rdtxc => .next s
      | .rdrxc => .next s
      | .setup => .next s)
    s

/-- Step Q1 of RXDEQ (R105): the own index. -/
def rxdeqQ1 (s : State) : Host.Outcome State Fault Refusal :=
  .next (s.setFg (.busy (.rxdeq (.q2 s.rxTail))))

/-- Step Q2 of RXDEQ (R105, R106): snapshot of the producer's index; EMPTY ends the operation here. -/
def rxdeqQ2 (t : Nat) (s : State) : Host.Outcome State Fault Refusal :=
  if s.rxHead = t then .next (s.respond (encode .rxdeq) .empty 0)
  else .next (s.setFg (.busy (.rxdeq (.q3 t s.rxHead))))

/-- Step Q3 of RXDEQ (R105): the oldest byte is read. -/
def rxdeqQ3 (t h : Nat) (s : State) : Host.Outcome State Fault Refusal :=
  afterAccess (s.readRx t) fun v => .next (s.setFg (.busy (.rxdeq (.q4 t h v))))

/-- Step Q4 of RXDEQ (R105, R65): the tail is published, only after Q3, and the byte is answered. -/
def rxdeqQ4 (t : Nat) (v : Byte) (s : State) : Host.Outcome State Fault Refusal :=
  .next ({ s with rxTail := inc s.cfg.rcap t }.respond (encode .rxdeq) .ok (zextByte v))

/-- The micro-step of RXDEQ in flight (R105). -/
def rxdeqMicro (p : RxdeqAt) (s : State) : Host.Outcome State Fault Refusal :=
  match p with
  | .q1 => rxdeqQ1 s
  | .q2 t => rxdeqQ2 t s
  | .q3 t h => rxdeqQ3 t h s
  | .q4 t _ v => rxdeqQ4 t v s

/-- RXDEQ (R105): accepted when the sequencer is idle, else its next micro-step. -/
def execRxdeq (s : State) : Host.Outcome State Fault Refusal :=
  foregroundOp .rxdeq (.rxdeq .q1)
    (fun f =>
      match f with
      | .rxdeq p => rxdeqMicro p s
      | .txenq _ => .next s
      | .rdtxc => .next s
      | .rdrxc => .next s
      | .setup => .next s)
    s

end Sys2Proof.Machine
end

