-- ==== Sys2Proof/Machine/SetupDiag.lean ====
section
/-! DEFINITION. Port setup and diagnostics: SETUP, RDTXC, RDRXC (42_setup_diag_ops). -/

namespace Sys2Proof.Machine

/-- The state record at its lifecycle start (R140, R142, R144): indices and counters zero, transmit source disarmed,
buffer bytes as they were. -/
def State.clearRecord (s : State) : State :=
  { s with txie := false, rxHead := 0, rxTail := 0, txHead := 0, txTail := 0, rxCount := 0, txCount := 0 }

/-- Step S1 of SETUP, one atomic micro-step (R140, R143): record cleared, hardware configured, receive source armed
last, OK. -/
def setupS1 (s : State) : Host.Outcome State Fault Refusal :=
  .next ({ s.clearRecord.hwConfigure with rxie := true }.respond (encode .setup) .ok 0)

/-- SETUP (R140): accepted when the sequencer is idle, else its micro-step. -/
def execSetup (s : State) : Host.Outcome State Fault Refusal := foregroundOp .setup .setup (fun _ => setupS1 s) s

/-- Step C1 of RDTXC (R146): the whole counter is read in one step and answered. -/
def rdtxcC1 (s : State) : Host.Outcome State Fault Refusal := .next (s.respond (encode .rdtxc) .ok s.txCount)

/-- RDTXC (R146): accepted when the sequencer is idle, else its micro-step. -/
def execRdtxc (s : State) : Host.Outcome State Fault Refusal := foregroundOp .rdtxc .rdtxc (fun _ => rdtxcC1 s) s

/-- Step C1 of RDRXC (R147): the whole counter is read in one step and answered. -/
def rdrxcC1 (s : State) : Host.Outcome State Fault Refusal := .next (s.respond (encode .rdrxc) .ok s.rxCount)

/-- RDRXC (R147): accepted when the sequencer is idle, else its micro-step. -/
def execRdrxc (s : State) : Host.Outcome State Fault Refusal := foregroundOp .rdrxc .rdrxc (fun _ => rdrxcC1 s) s

end Sys2Proof.Machine
end

