-- ==== Sys2Proof/Machine/Dispatch.lean ====
section
/-! DEFINITION. One arm per operation. `exec i s` is the NEXT ATOMIC STEP of operation `i` (20_memory R59, R63): for
an event operation the whole of it; for a foreground operation its acceptance when the sequencer is idle, and its
micro-step at `fg.point` while it is in flight (assumption 5). -/

namespace Sys2Proof.Machine

def exec (i : Instr) (s : State) : Host.Outcome State Fault Refusal :=
  match i with
  | .txenq b => Sys2Proof.Machine.execTxenq b s
  | .rxdeq => Sys2Proof.Machine.execRxdeq s
  | .rdtxc => Sys2Proof.Machine.execRdtxc s
  | .rdrxc => Sys2Proof.Machine.execRdrxc s
  | .setup => Sys2Proof.Machine.execSetup s
  | .rxevt b => Sys2Proof.Machine.execRxevt b s
  | .txevt => Sys2Proof.Machine.execTxevt s

end Sys2Proof.Machine
end

