-- ==== Sys2Proof/Machine/Agents.lean ====
section
/-! DEFINITION. The agents of 00_scope R18 and the step kinds of 20_memory R62: which step the inputs and the state
allow, and what that step does. -/

namespace Sys2Proof.Machine

/-- The step the agent that was let move takes (R62, R63). Reset wins over everything (70_reset R190, assumption 12).
The foreground agent performs its micro-step while `fg` is Busy, whatever word is presented (30_encoding R90), else
accepts the word presented. The event agent moves only for a source that is asserted and enabled (60_exceptions
R170). -/
def nextKind (s : State) (x : Inputs) : StepKind :=
  if x.rst then .reset
  else
    match x.turn with
    | .foreground =>
      match s.fg, x.fgCmd with
      | .busy _, _ => .fgStep
      | .idle, some w => .fgAccept w
      | .idle, none => .hold
    | .rxEvent =>
      match x.rxAvail with
      | some b => if irqRx s x then .evRx b else .hold
      | none => .hold
    | .txEvent => if irqTx s x then .evTx else .hold

/-- `fg_accept(w)` (R62): a word that names an operation is accepted; a reserved word is answered ILLEGAL in this very
step and changes nothing (30_encoding R85, R86). -/
def acceptWord (w : OpWord) (s : State) : Host.Outcome State Fault Refusal :=
  match decode .foreground w with
  | .ok i => exec i s
  | .error _ => .next (s.respond w .illegal 0)

/-- `fg_step` (R62): the micro-step of the operation in flight. -/
def foregroundStep (s : State) : Host.Outcome State Fault Refusal :=
  match s.fg with
  | .idle => .next s
  | .busy f => exec f.op s

/-- What a step of each kind does (R62). -/
def perform (k : StepKind) (s : State) : Host.Outcome State Fault Refusal :=
  match k with
  | .fgAccept w => acceptWord w s
  | .fgStep => foregroundStep s
  | .evRx b => exec (.rxevt b) s
  | .evTx => exec .txevt s
  | .reset => .next s.hardReset
  | .hold => .next s

/-- One atomic step: no instance runs with a configuration that fails its check (60_exceptions R163). -/
def atomicStep (s : State) : Host.Outcome State Fault Refusal :=
  if s.cfg.wf then perform (nextKind s s.input) s.beginStep else .refused .configOutOfRange

/-- `k` atomic steps of the one operation `i` with nothing between them: what the operation does when no event falls
into it. -/
def uninterrupted (i : Instr) : Nat → State → Host.Outcome State Fault Refusal
  | 0, s => .next s
  | k + 1, s =>
    match exec i s with
    | .next t => uninterrupted i k t
    | .fault r => .fault r
    | .refused r => .refused r

end Sys2Proof.Machine
end

