-- ==== Sys2Proof/Machine/Script.lean ====
section
/-! DEFINITION. Scripts (30_encoding R93, R94): what the world outside offers, written as operations, and the
pseudo-operations. -/

namespace Sys2Proof.Machine.Script

/-- The master presents `w` and the foreground agent moves. -/
def present (w : OpWord) : Inputs := { Inputs.quiet with fgCmd := some w }

/-- The foreground agent moves, no word is presented. -/
def microStep : Inputs := Inputs.quiet

/-- `!RXEVT b`: the hardware layer offers `b` and the event agent takes the receive source. -/
def rxevt (b : Byte) : Inputs := { Inputs.quiet with rxAvail := some b, turn := .rxEvent }

/-- `!TXEVT`: the hardware layer is ready and the event agent takes the transmit source. -/
def txevt : Inputs := { Inputs.quiet with txReady := true, turn := .txEvent }

/-- `rst` is asserted. -/
def rst : Inputs := { Inputs.quiet with rst := true }

/-- `WORD w`: the raw word is presented and the foreground has the five micro-steps an operation may take
(R94, 00_scope R19); those it does not need hold (assumption 14). -/
def word (w : OpWord) : List Inputs := present w :: List.replicate 5 microStep

/-- A foreground operation, flush left in R93. -/
def op (i : Instr) : List Inputs := word (encode i)

/-- `TXENQS "c1c2...cn"` (R94). -/
def txenqs (bs : List Byte) : List Inputs := bs.flatMap fun b => op (.txenq b)

/-- `DRAIN n` (R94). -/
def drain (n : Nat) : List Inputs := List.replicate n txevt

/-- `INJECT b` (R94), for each byte of a list. -/
def inject (bs : List Byte) : List Inputs := bs.map rxevt

/-- RXDEQ `n` times. -/
def dequeues (n : Nat) : List Inputs := (List.replicate n (op .rxdeq)).flatten

end Sys2Proof.Machine.Script
end

