-- ==== Sys2Proof/Machine/Step.lean ====
section
/-! DEFINITION. The step function, and the placing of an operation as the next one to run. -/

namespace Sys2Proof.Machine

/-- One step of the block: one atomic step of 20_memory R62, the one the head of `State.inputs` allows. -/
def step (s : State) : Host.Outcome State Fault Refusal := atomicStep s

/-- `s` with the operation of word `w` offered next, so that the very next step runs it (assumption 9). The block
fetches no instructions (10_state R36, 20_memory R69). A foreground word is presented on the command port, which
accepts only while the sequencer is idle (30_encoding R90). An event is offered by the hardware layer, and its source
is armed, since only an armed source invokes the handler (60_exceptions R170). -/
def State.withFetchWord (s : State) (nbits w : Nat) : State :=
  let v := BitVec.ofNat 12 (w % 2 ^ nbits)
  match decodeEv v with
  | .ok (.rxevt b) => { s with rxie := true, inputs := Script.rxevt b :: s.inputs }
  | .ok _ => { s with txie := true, inputs := Script.txevt :: s.inputs }
  | .error _ => { s with fg := .idle, inputs := Script.present v :: s.inputs }

end Sys2Proof.Machine
end

