-- ==== Sys2Proof/Safety.lean ====
section
/-! DEFINITION. What counts as a safe run: the invariants of 70_reset R205, the bookkeeping of what an execution
did since the last SETUP (R205 I6 and I7, R198), the launch premise (R193) and quiescence (R211). -/

namespace Sys2Proof.Machine

/-- I1 (R205, 10_state R25): every index is in range. -/
abbrev State.indicesOk (s : State) : Prop :=
  s.rxHead < s.cfg.rcap ∧ s.rxTail < s.cfg.rcap ∧ s.txHead < s.cfg.tcap ∧ s.txTail < s.cfg.tcap

/-- The counters fit their `CW` bits (10_state R20, R30, R31). -/
abbrev State.countersOk (s : State) : Prop := s.rxCount < 2 ^ s.cfg.cw ∧ s.txCount < 2 ^ s.cfg.cw

/-- The written slots of both buffers are in canonical form and are slots of their buffer (10_state R21, R22). -/
abbrev State.buffersOk (s : State) : Prop :=
  s.rxBuf.wf ∧ s.txBuf.wf ∧ (∀ c ∈ s.rxBuf, c.1 < s.cfg.rcap) ∧ (∀ c ∈ s.txBuf, c.1 < s.cfg.tcap)

/-- Every slot of a live region has been written (10_state R43, R44). -/
abbrev State.liveWritten (s : State) : Prop :=
  (∀ i ∈ liveSlots s.cfg.rcap s.rxHead s.rxTail, (s.rxBuf.slot? i).isSome = true) ∧
    (∀ i ∈ liveSlots s.cfg.tcap s.txHead s.txTail, (s.txBuf.slot? i).isSome = true)

/-- A TXENQ stands between its steps E4 and E5. -/
def Fg.armPending : Fg → Bool
  | .busy (.txenq (.e5 _ _ _ _)) => true
  | .busy _ => false
  | .idle => false

/-- I3 (R205): with `txie = 0` the transmit buffer is empty, but for a TXENQ that is about to arm it. -/
abbrev State.armOk (s : State) : Prop := s.txie = true ∨ s.txHead = s.txTail ∨ s.fg.armPending = true

/-- I4 and I5 (R205): the locals of the operation in flight agree with the registers. I4 is read for the points up to
E4, since E4 itself advances `tx_head` (assumption 11). -/
def State.flightOk (s : State) : Bool :=
  match s.fg with
  | .idle => true
  | .busy (.txenq (.e1 _)) => true
  | .busy (.txenq (.e2 _ h next)) => decide (h = s.txHead ∧ next = inc s.cfg.tcap h)
  | .busy (.txenq (.e3 _ h next _)) => decide (h = s.txHead ∧ next = inc s.cfg.tcap h ∧ next ≠ s.txTail)
  | .busy (.txenq (.e4 b h next _)) =>
    decide (h = s.txHead ∧ next = inc s.cfg.tcap h ∧ next ≠ s.txTail ∧ s.txBuf.slot? h = some b)
  | .busy (.txenq (.e5 _ h next _)) => decide (next = inc s.cfg.tcap h ∧ next = s.txHead)
  | .busy (.rxdeq .q1) => true
  | .busy (.rxdeq (.q2 t)) => decide (t = s.rxTail)
  | .busy (.rxdeq (.q3 t _)) => decide (t = s.rxTail ∧ s.rxHead ≠ t)
  | .busy (.rxdeq (.q4 t _ v)) => decide (t = s.rxTail ∧ s.rxHead ≠ t ∧ s.rxBuf.slot? t = some v)
  | .busy .rdtxc => true
  | .busy .rdrxc => true
  | .busy .setup => true

/-- The invariant of the block (R205), for a configuration that has an instance. -/
abbrev State.Inv (s : State) : Prop :=
  s.cfg.wf = true ∧ s.indicesOk ∧ s.countersOk ∧ s.buffersOk ∧ s.liveWritten ∧ s.armOk ∧ s.flightOk = true

/-- "A SETUP has completed since the last reset" (R193): SETUP alone sets `rxie` and only reset clears it (60_exceptions
R172), so that `rxie` records it; `Ledger.balanced` compares it with what the steps did. The launch premise of claims
that rest on doc00's authority (decision D21); of other states a claim rests on decision D13 alone (assumption 22). -/
def State.launched (s : State) : Bool := s.rxie

/-- A quiescent state (R211): the sequencer idle, no further word to present, neither source asserted and enabled
under the present inputs. -/
def State.quiescent (s : State) : Bool :=
  s.fgReady && s.inputs.all (fun x => x.fgCmd.isNone) && !irqRx s s.input && !irqTx s s.input

/-- What an execution did since the last SETUP or hardware reset, in the terms of R205 and R198, and whether there has
been a SETUP (R193). It is no state of the block: it is read off the steps (assumption 18). -/
structure Ledger where
  /-- `tx_pub`: bytes of TXENQs in the order of their E4 steps. -/
  txPub : List Byte
  /-- `tx_sent`: bytes passed to `HwWriteTx`. -/
  txSent : List Byte
  /-- TXEVTs that sent nothing. -/
  txIdle : Nat
  /-- TXENQs answered OK. -/
  txOk : Nat
  /-- `rx_stored`: bytes stored by RXEVTs. -/
  rxStored : List Byte
  /-- `rx_deq`: bytes returned by RXDEQs. -/
  rxDeq : List Byte
  /-- RXEVTs that dropped their byte. -/
  rxDropped : Nat
  /-- Whether a SETUP has completed since the last hardware reset (R193). -/
  setUp : Bool
  deriving DecidableEq, Repr

/-- Nothing has happened yet. -/
def Ledger.empty : Ledger where
  txPub := []
  txSent := []
  txIdle := 0
  txOk := 0
  rxStored := []
  rxDeq := []
  rxDropped := 0
  setUp := false

/-- Whether the step that led to `t` answered OK. -/
def State.answeredOk (t : State) : Bool :=
  match t.out.fgRsp with
  | some r => r.st == .ok
  | none => false

/-- The ledger after a micro-step of the foreground from `s` to `t`. -/
def Ledger.afterMicroStep (l : Ledger) (s t : State) : Ledger :=
  match s.fg with
  | .idle => l
  | .busy (.txenq (.e4 b _ _ _)) => { l with txPub := l.txPub ++ [b] }
  | .busy (.txenq _) => if t.answeredOk then { l with txOk := l.txOk + 1 } else l
  | .busy (.rxdeq _) =>
    if t.answeredOk then { l with rxDeq := l.rxDeq ++ (t.out.fgRsp.map fun r => BitVec.ofNat 8 r.data).toList } else l
  | .busy .rdtxc => l
  | .busy .rdrxc => l
  | .busy .setup => { Ledger.empty with setUp := true }

/-- The ledger after the step from `s` to `t`, read off the strobes and indices the step left. -/
def Ledger.observe (l : Ledger) (s t : State) : Ledger :=
  match nextKind s s.input with
  | .fgAccept _ => l
  | .fgStep => l.afterMicroStep s t
  | .evRx b =>
    if t.rxHead = s.rxHead then { l with rxDropped := l.rxDropped + 1 } else { l with rxStored := l.rxStored ++ [b] }
  | .evTx =>
    match t.out.txWr with
    | some v => { l with txSent := l.txSent ++ [v] }
    | none => { l with txIdle := l.txIdle + 1 }
  | .reset => Ledger.empty
  | .hold => l

/-- I6 and I7 of R205 and the bound of R198: what was published is what was sent and what is still queued, likewise
what was stored; each counter is its number of events modulo `2^CW`; idle TXEVTs are at most the successful TXENQs,
with room for one more while `txie = 1`; and `State.launched` says whether a SETUP has completed (R193). -/
abbrev Ledger.balanced (l : Ledger) (s : State) : Prop :=
  l.txPub = l.txSent ++ s.txLive ∧
    l.rxStored = l.rxDeq ++ s.rxLive ∧
    s.txCount = (l.txSent.length + l.txIdle) % 2 ^ s.cfg.cw ∧
    s.rxCount = (l.rxStored.length + l.rxDropped) % 2 ^ s.cfg.cw ∧
    l.txIdle + s.txie.toNat ≤ l.txOk ∧
    l.setUp = s.launched

/-- The slot TXENQ `b` stores to when its next step is E3 (40_foreground_ops R100). -/
def txenqStores (b : Byte) (s : State) : Option Nat :=
  match s.fg with
  | .busy (.txenq (.e3 b' h _ _)) => if b' = b then some h else none
  | .busy _ => none
  | .idle => none

/-- The slot RXEVT stores to, when the receive buffer is not full (41_event_ops R121). -/
def rxevtStores (s : State) : Option Nat := if s.rxFull then none else some s.rxHead

end Sys2Proof.Machine
end

