-- ==== Sys2Proof/Certificates/Slice0/Obligations.lean ====
section
/-! DEFINITION. The statements for the provers. Each docstring names the rules of spec/ it formalises. `exec i s`
is the next atomic step of operation `i`; a statement that gives it as a whole record update says with it that every
field not named is unchanged. -/

open Sys2Proof Sys2Proof.Machine

/-! ### Encoding -/

/-- R95: `decode_fg` and `decode_ev` word by word, Illegal for every other word, and `encode` their inverse on all
seven operations with every operand byte. -/
def Obligations.DecodeFollowsTableAndInvertsEncode : Prop :=
  (∀ b : Byte, decode .foreground (0x100#12 + b.setWidth 12) = .ok (.txenq b)) ∧
    decode .foreground 0x200#12 = .ok .rxdeq ∧
    decode .foreground 0x300#12 = .ok .rdtxc ∧
    decode .foreground 0x400#12 = .ok .rdrxc ∧
    decode .foreground 0x500#12 = .ok .setup ∧
    (∀ w : OpWord,
      (∀ b : Byte, w ≠ 0x100#12 + b.setWidth 12) → w ∉ [0x200#12, 0x300#12, 0x400#12, 0x500#12] →
        ∃ e, decode .foreground w = .error e) ∧
    (∀ b : Byte, decode .event (0x800#12 + b.setWidth 12) = .ok (.rxevt b)) ∧
    decode .event 0x900#12 = .ok .txevt ∧
    (∀ w : OpWord, (∀ b : Byte, w ≠ 0x800#12 + b.setWidth 12) → w ≠ 0x900#12 → ∃ e, decode .event w = .error e) ∧
    (∀ i : Instr, decode i.context (encode i) = .ok i) ∧
    (∀ (c : Context) (w : OpWord) (i : Instr), decode c w = .ok i → encode i = w ∧ i.context = c)

/-- Sanity: words of the decode table of 95_test_vectors section 2.6. -/
def Obligations.SampleWordsDecode : Prop :=
  decode .foreground 0x141#12 = .ok (.txenq 0x41#8) ∧
    decode .foreground 0x200#12 = .ok .rxdeq ∧
    decode .foreground 0x500#12 = .ok .setup ∧
    decode .event 0x831#12 = .ok (.rxevt 0x31#8) ∧
    decode .event 0x900#12 = .ok .txevt ∧
    decode .foreground 0x831#12 = .error .eventWordOnForegroundPort ∧
    decode .foreground 0x201#12 = .error .operandNotZero ∧
    decode .foreground 0x7AB#12 = .error .reservedOpcode

/-- R85, R86: a reserved word on the foreground port, accepted while the sequencer is idle, is answered ILLEGAL in the
accepting step and changes nothing else: `fg` stays Idle, no field of the record, no hardware access. Event words other
than those of RXEVT and TXEVT never occur. -/
def Obligations.ReservedWordAnsweredIllegal : Prop :=
  (∀ (s : State) (x : Inputs) (rest : List Inputs) (w : OpWord),
    s.cfg.wf = true → s.inputs = x :: rest → x.rst = false → x.turn = .foreground → x.fgCmd = some w → s.fg = .idle →
      (w.toNat / 256 ∈ [0x0, 0x6, 0x7] ∨ (w.toNat / 256 ∈ [0x2, 0x3, 0x4, 0x5] ∧ w.toNat % 256 ≠ 0) ∨
          w.getLsbD 11 = true) →
        step s =
          .next { s with
            inputs := rest
            rsp := s.rsp ++ [(w, ⟨.illegal, 0⟩)]
            out := { Strobes.quiet with fgRsp := some ⟨.illegal, 0⟩ } }) ∧
  (∀ (s t : State) (e : OpWord), step s = .next t → t.out.evCode = some e →
    (∃ b : Byte, e = 0x800#12 + b.setWidth 12) ∨ e = 0x900#12)

/-- R87, R88: the response word is `st * 2^DW + data` with `DW = max(CW, BW)`, and `st` codes OK, FULL, EMPTY and
ILLEGAL as 0, 1, 2 and 3. -/
def Obligations.ResponseWordIsStatusThenData : Prop :=
  ∀ (c : Config) (d : Nat), d < 2 ^ max c.cw 8 →
    (responseWord c ⟨.ok, d⟩).toNat = d ∧
      (responseWord c ⟨.full, d⟩).toNat = 1 * 2 ^ max c.cw 8 + d ∧
      (responseWord c ⟨.empty, d⟩).toNat = 2 * 2 ^ max c.cw 8 + d ∧
      (responseWord c ⟨.illegal, d⟩).toNat = 3 * 2 ^ max c.cw 8 + d

/-- R12: `IWR` and `IWT` are `max(1, ceil(log2(capacity)))`, and they hold every index in range. -/
def Obligations.IndexWidthsHoldEveryIndex : Prop :=
  ∀ c : Config, 2 ≤ c.rcap → 2 ≤ c.tcap →
    c.iwr = max 1 (Nat.clog 2 c.rcap) ∧
      c.iwt = max 1 (Nat.clog 2 c.tcap) ∧
      (∀ i, i < c.rcap → i < 2 ^ c.iwr) ∧
      (∀ i, i < c.tcap → i < 2 ^ c.iwt)

/-! ### Reset, configuration and the step -/

/-- R190: hardware reset, from every state and in the middle of every operation: indices and counters 0, both enables
0, the sequencer idle, no response for the operation in flight, every slot an unspecified byte (in the form of
assumption 3). With it R42's flags and ghost traces after reset. -/
def Obligations.HardwareResetTakesResetValues : Prop :=
  ∀ s : State, s.cfg.wf = true → s.input.rst = true →
    ∃ t, step s = .next t ∧
      t.rxHead = 0 ∧ t.rxTail = 0 ∧ t.txHead = 0 ∧ t.txTail = 0 ∧ t.rxCount = 0 ∧ t.txCount = 0 ∧
      t.rxie = false ∧ t.txie = false ∧ t.fg = .idle ∧ t.out.fgRsp = none ∧
      (∀ i, t.rxSlot i = Config.unspecifiedByte .rx t.epoch i) ∧
      (∀ i, t.txSlot i = Config.unspecifiedByte .tx t.epoch i) ∧
      t.rxEmpty = true ∧ t.txEmpty = true ∧ t.rxFull = false ∧ t.txFull = false ∧
      t.txOut = [] ∧ t.rxIn = [] ∧ t.rsp = []

/-- R43 with the model's choice of assumption 3: after hardware reset every slot of both buffers reads as the free
value of a new epoch, and the model's own fields `cfg` and `inputs` stay with the world outside. -/
def Obligations.HardwareResetLeavesBuffersUnspecified : Prop :=
  ∀ s : State, s.cfg.wf = true → s.input.rst = true →
    ∃ t, step s = .next t ∧
      (∀ i, t.rxSlot i = Config.unspecifiedByte .rx (s.epoch + 1) i) ∧
      (∀ i, t.txSlot i = Config.unspecifiedByte .tx (s.epoch + 1) i) ∧
      t.cfg = s.cfg ∧ t.inputs = s.inputs.tail

/-- The invariant of R205 holds right after reset. -/
def Obligations.InvariantHoldsAtReset : Prop := State.Inv State.reset

/-- R205 I1 to I5, with R25, R43 and R44: every step keeps the invariant, in every state that meets it and for
everything the world outside may offer. I4 is read up to E4 (assumption 11). -/
def Obligations.StepKeepsInvariant : Prop := ∀ s t : State, s.Inv → step s = .next t → t.Inv

/-- R160: no trap, fault or abort. In a state that meets the invariant every step has a next state, whatever is
offered. -/
def Obligations.NoStepStopsUnderInvariant : Prop := ∀ s : State, s.Inv → ∃ t, step s = .next t

/-- The canonical form of both buffers is kept by every step from every state, the invariant or not (10_state R21,
R22; the form is the model's, assumption 3). -/
def Obligations.StepKeepsBuffersCanonical : Prop :=
  ∀ s t : State, s.rxBuf.wf → s.txBuf.wf → step s = .next t → t.rxBuf.wf ∧ t.txBuf.wf

/-- R7, R8, R13, R14, R163: what the configuration check asks, and that no step runs when it fails. The last
conjunct of the check is the model's (assumption 2). -/
def Obligations.IllFormedConfigurationNeverRuns : Prop :=
  (∀ c : Config, c.wf = true ↔
    2 ≤ c.rcap ∧ 2 ≤ c.tcap ∧ 1 ≤ c.cw ∧ c.div < 2 ^ c.divw ∧ (c.divRule = .quotient → c.baud ≠ 0)) ∧
    (∀ s : State, s.cfg.wf = false → step s = .refused .configOutOfRange)

/-- R9: the parameters are constants. No step changes them (that State carries them is assumption 1). -/
def Obligations.StepKeepsConfiguration : Prop := ∀ s t : State, step s = .next t → t.cfg = s.cfg

/-- A step runs the decoded operation (R62, R90): an idle port accepts the word presented, an operation in flight
performs its own next micro-step whatever is presented, an armed source that is asserted invokes its handler path.
Around `exec` the step only takes its inputs and clears the strobes of the step before (`beginStep`). The model's own
choices in it: inputs taken from a list (assumption 4), strobes kept in State until the next step (assumption 7), and
the last clause, a step in which nothing is presented (assumption 6). -/
def Obligations.StepRunsDecodedOperation : Prop :=
  ∀ s : State, s.cfg.wf = true → s.input.rst = false →
    (∀ w i, s.input.turn = .foreground → s.fg = .idle → s.input.fgCmd = some w → decode .foreground w = .ok i →
      step s = exec i s.beginStep) ∧
    (∀ f, s.input.turn = .foreground → s.fg = .busy f → step s = exec f.op s.beginStep) ∧
    (∀ b, s.input.turn = .rxEvent → s.rxie = true → s.input.rxAvail = some b →
      step s = exec (.rxevt b) s.beginStep) ∧
    (s.input.turn = .txEvent → s.txie = true → s.input.txReady = true → step s = exec .txevt s.beginStep) ∧
    (s.input.turn = .foreground → s.fg = .idle → s.input.fgCmd = none → step s = .next s.beginStep)

/-- What `withFetchWord` places is what the very next step runs, for all seven operations (assumption 9). -/
def Obligations.PlacedWordRunsNext : Prop :=
  ∀ (s : State) (i : Instr), s.cfg.wf = true →
    (i.context = .foreground →
      step (s.withFetchWord 12 (encode i).toNat) = exec i { s with fg := .idle, out := Strobes.quiet }) ∧
    (∀ b, i = .rxevt b →
      step (s.withFetchWord 12 (encode i).toNat) = exec i { s with rxie := true, out := Strobes.quiet }) ∧
    (i = .txevt →
      step (s.withFetchWord 12 (encode i).toNat) = exec i { s with txie := true, out := Strobes.quiet })

/-- R170: the two equations on the pins, and the handler is invoked for a source exactly while it is asserted and
enabled. Where it is not, R170 says only that no event occurs; that the step then takes its inputs and changes nothing
else is the model's choice (assumption 6, with 4 and 7). -/
def Obligations.EventsAreGatedByEnables : Prop :=
  (∀ (s : State) (x : Inputs),
    ((s.pins x).irqRx = true ↔ s.rxie = true ∧ x.rxAvail ≠ none) ∧
      ((s.pins x).irqTx = true ↔ s.txie = true ∧ x.txReady = true)) ∧
  ∀ s : State, s.cfg.wf = true → s.input.rst = false →
    (s.input.turn = .rxEvent →
      (∀ b, s.rxie = true → s.input.rxAvail = some b → step s = exec (.rxevt b) s.beginStep) ∧
        (s.rxie = false ∨ s.input.rxAvail = none →
          step s = .next { s with inputs := s.inputs.tail, out := Strobes.quiet })) ∧
    (s.input.turn = .txEvent →
      (s.txie = true → s.input.txReady = true → step s = exec .txevt s.beginStep) ∧
        (s.txie = false ∨ s.input.txReady = false →
          step s = .next { s with inputs := s.inputs.tail, out := Strobes.quiet }))

/-- R72, R90: while an operation is in flight the port accepts nothing: a step does the same whatever word is
presented, and none. -/
def Obligations.BusyPortIgnoresTheWordPresented : Prop :=
  ∀ (s : State) (x : Inputs) (rest : List Inputs) (f : Flight) (w : OpWord), s.fg = .busy f →
    step { s with inputs := { x with fgCmd := some w } :: rest } =
      step { s with inputs := { x with fgCmd := none } :: rest }

/-- A foreground operation other than the one in flight waits: its `exec` changes nothing (R72, R90; the form is
the model's, assumption 5). -/
def Obligations.OtherOperationWaitsWhileBusy : Prop :=
  ∀ (s : State) (f : Flight) (i : Instr), s.fg = .busy f → i.context = .foreground → f.op ≠ i → exec i s = .next s

/-! ### Buffers -/

/-- R52: `BufWrite` and `BufRead` with an index below the capacity: afterwards the slot holds the byte and every other
slot is unchanged; a slot never written reads as an unspecified byte. Outside the precondition both are refused
(R55). -/
def Obligations.BufferWriteThenRead : Prop :=
  ∀ (id : BufferId) (cap epoch : Nat) (m : Memory) (i : Nat) (v : Byte), i < cap →
    (∃ m', bufWrite cap m i v = .ok m' ∧
      bufRead id cap epoch m' i = .ok v ∧
      (∀ j, j ≠ i → bufRead id cap epoch m' j = bufRead id cap epoch m j)) ∧
    ((∀ c ∈ m, c.1 ≠ i) → bufRead id cap epoch m i = .ok (Config.unspecifiedByte id epoch i)) ∧
    (∀ j, cap ≤ j → bufRead id cap epoch m j = .error .indexOutOfRange ∧ bufWrite cap m j v = .error .indexOutOfRange)

/-- R55 (93 U4): an access with an index outside its buffer is refused: TXENQ at E3, RXDEQ at Q3, a storing RXEVT, a
sending TXEVT. -/
def Obligations.OutOfRangeAccessIsRefused : Prop :=
  (∀ s b h next t, s.fg = .busy (.txenq (.e3 b h next t)) → s.cfg.tcap ≤ h →
    exec (.txenq b) s = .refused .indexOutOfRange) ∧
  (∀ s t h, s.fg = .busy (.rxdeq (.q3 t h)) → s.cfg.rcap ≤ t → exec .rxdeq s = .refused .indexOutOfRange) ∧
  (∀ (s : State) b, (s.rxHead + 1) % s.cfg.rcap ≠ s.rxTail → s.cfg.rcap ≤ s.rxHead →
    exec (.rxevt b) s = .refused .indexOutOfRange) ∧
  (∀ s : State, s.txTail ≠ s.txHead → s.cfg.tcap ≤ s.txTail → exec .txevt s = .refused .indexOutOfRange)

/-- R26, R27, R28: empty is `head = tail`, full is `inc(head) = tail`; the level is `(head - tail) mod capacity`, which
stays below the capacity; empty is level 0, full is level capacity minus one, and no buffer is both empty and full (the
part about levels the spec derives from R25, R26 and R27). -/
def Obligations.FlagsAgreeWithLevels : Prop :=
  ∀ s : State, s.cfg.wf = true → s.indicesOk →
    (s.rxLevel : Int) = ((s.rxHead : Int) - s.rxTail) % s.cfg.rcap ∧
      (s.txLevel : Int) = ((s.txHead : Int) - s.txTail) % s.cfg.tcap ∧
      (s.rxEmpty = true ↔ s.rxHead = s.rxTail) ∧ (s.txEmpty = true ↔ s.txHead = s.txTail) ∧
      (s.rxFull = true ↔ (s.rxHead + 1) % s.cfg.rcap = s.rxTail) ∧
      (s.txFull = true ↔ (s.txHead + 1) % s.cfg.tcap = s.txTail) ∧
      s.rxLevel ≤ s.cfg.rcap - 1 ∧ s.txLevel ≤ s.cfg.tcap - 1 ∧
      (s.rxEmpty = true ↔ s.rxLevel = 0) ∧ (s.txEmpty = true ↔ s.txLevel = 0) ∧
      (s.rxFull = true ↔ s.rxLevel = s.cfg.rcap - 1) ∧ (s.txFull = true ↔ s.txLevel = s.cfg.tcap - 1) ∧
      ¬(s.rxEmpty = true ∧ s.rxFull = true) ∧ ¬(s.txEmpty = true ∧ s.txFull = true)

/-! ### TXENQ -/

/-- R100: TXENQ micro-step by micro-step. Each equation gives the whole next state. The last clause is the rule's flags
sentence. -/
def Obligations.TxenqMicroSteps : Prop :=
  ∀ (s : State) (b : Byte),
    (s.fg = .idle → exec (.txenq b) s = .next { s with fg := .busy (.txenq (.e1 b)) }) ∧
    (s.fg = .busy (.txenq (.e1 b)) →
      exec (.txenq b) s = .next { s with fg := .busy (.txenq (.e2 b s.txHead ((s.txHead + 1) % s.cfg.tcap))) }) ∧
    (∀ h next, s.fg = .busy (.txenq (.e2 b h next)) →
      exec (.txenq b) s =
        if next = s.txTail then
          .next { s with
            fg := .idle
            rsp := s.rsp ++ [(0x100#12 + b.setWidth 12, ⟨.full, 0⟩)]
            out := { s.out with fgRsp := some ⟨.full, 0⟩ } }
        else .next { s with fg := .busy (.txenq (.e3 b h next s.txTail)) }) ∧
    (∀ h next t, s.fg = .busy (.txenq (.e3 b h next t)) → h < s.cfg.tcap →
      exec (.txenq b) s = .next { s with txBuf := s.txBuf.store h b, fg := .busy (.txenq (.e4 b h next t)) }) ∧
    (∀ h next t, s.fg = .busy (.txenq (.e4 b h next t)) →
      exec (.txenq b) s = .next { s with txHead := next, fg := .busy (.txenq (.e5 b h next t)) }) ∧
    (∀ h next t, s.fg = .busy (.txenq (.e5 b h next t)) →
      exec (.txenq b) s =
        .next { s with
          txie := true
          fg := .idle
          rsp := s.rsp ++ [(0x100#12 + b.setWidth 12, ⟨.ok, 0⟩)]
          out := { s.out with fgRsp := some ⟨.ok, 0⟩ } }) ∧
    (∀ h next t u, s.fg = .busy (.txenq (.e4 b h next t)) → exec (.txenq b) s = .next u →
      (next ≠ s.txTail → u.txEmpty = false) ∧
        (s.cfg.wf = true → next < s.cfg.tcap → s.txTail < s.cfg.tcap → u.txLevel = s.cfg.tcap - 1 → u.txFull = true))

/-- TXENQ with no event in it, on a buffer that is not full (R100): acceptance and five micro-steps store the byte
at head, advance head, arm `txie` and answer OK, and change nothing else. -/
def Obligations.TxenqStoresPublishesAndArms : Prop :=
  ∀ (s : State) (b : Byte), s.fg = .idle → s.txHead < s.cfg.tcap → (s.txHead + 1) % s.cfg.tcap ≠ s.txTail →
    uninterrupted (.txenq b) 6 s =
      .next { s with
        txBuf := s.txBuf.store s.txHead b
        txHead := (s.txHead + 1) % s.cfg.tcap
        txie := true
        rsp := s.rsp ++ [(0x100#12 + b.setWidth 12, ⟨.ok, 0⟩)]
        out := { s.out with fgRsp := some ⟨.ok, 0⟩ } }

/-- R101, R161: TXENQ on a full buffer ends at E2 with FULL; no slot, no index and not `txie` is written. No other
operation and no other step answers FULL. -/
def Obligations.TxenqOnFullChangesNothing : Prop :=
  (∀ (s : State) (b : Byte), s.fg = .idle → (s.txHead + 1) % s.cfg.tcap = s.txTail →
    uninterrupted (.txenq b) 3 s =
      .next { s with
        rsp := s.rsp ++ [(0x100#12 + b.setWidth 12, ⟨.full, 0⟩)]
        out := { s.out with fgRsp := some ⟨.full, 0⟩ } }) ∧
  (∀ (s t : State) (r : Response), s.flightOk = true → step s = .next t → t.out.fgRsp = some r → r.st = .full →
    ∃ b h next, s.fg = .busy (.txenq (.e2 b h next)) ∧ (s.txHead + 1) % s.cfg.tcap = s.txTail ∧
      t = { s with
        fg := .idle
        inputs := s.inputs.tail
        rsp := s.rsp ++ [(0x100#12 + b.setWidth 12, ⟨.full, 0⟩)]
        out := { Strobes.quiet with fgRsp := some ⟨.full, 0⟩ } })

/-- R102, R64: the byte is in its slot before it is published. E3 leaves the live region as it was, E4 adds the byte
at its end, and until E4 the slot is outside the live region, so that no TXEVT can read it. -/
def Obligations.TxenqPublishesAfterStoring : Prop :=
  ∀ (s t : State) (b : Byte) (h next u : Nat), s.Inv → exec (.txenq b) s = .next t →
    (s.fg = .busy (.txenq (.e3 b h next u)) →
      h ∉ liveSlots s.cfg.tcap s.txHead s.txTail ∧ t.txHead = s.txHead ∧ t.txLive = s.txLive ∧ t.txSlot h = b) ∧
    (s.fg = .busy (.txenq (.e4 b h next u)) →
      h ∉ liveSlots s.cfg.tcap s.txHead s.txTail ∧ s.txSlot h = b ∧ t.txLive = s.txLive ++ [b])

/-- R103 (90_conflicts C6): a TXENQ that is about to answer FULL finds `txie = 1`. -/
def Obligations.FullAnswerFindsSourceArmed : Prop :=
  ∀ (s : State) (b : Byte) (h next : Nat), s.Inv → s.fg = .busy (.txenq (.e2 b h next)) → next = s.txTail →
    s.txie = true

/-- Frame of TXENQ at every point (R100 "Never written"): the receive side, `tx_tail`, `tx_count` and `rxie` stay;
`tx_head` changes only at E4 and `txie` only at E5; every slot of both buffers reads as before except the one E3
stores to. -/
def Obligations.TxenqFrame : Prop :=
  ∀ (s t : State) (b : Byte), exec (.txenq b) s = .next t →
    t.rxHead = s.rxHead ∧ t.rxTail = s.rxTail ∧ t.rxCount = s.rxCount ∧ t.rxie = s.rxie ∧
      t.txTail = s.txTail ∧ t.txCount = s.txCount ∧ t.txOut = s.txOut ∧ t.rxIn = s.rxIn ∧
      t.cfg = s.cfg ∧ t.inputs = s.inputs ∧ t.epoch = s.epoch ∧
      (t.txHead = s.txHead ∨ ∃ h u, s.fg = .busy (.txenq (.e4 b h t.txHead u))) ∧
      (t.txie = s.txie ∨ ∃ h next u, s.fg = .busy (.txenq (.e5 b h next u))) ∧
      (∀ a, t.rxSlot a = s.rxSlot a) ∧
      (∀ a, txenqStores b s ≠ some a → t.txSlot a = s.txSlot a)

/-! ### RXDEQ -/

/-- R105: RXDEQ micro-step by micro-step. Each equation gives the whole next state. The last clause is the rule's flags
sentence. -/
def Obligations.RxdeqMicroSteps : Prop :=
  ∀ s : State,
    (s.fg = .idle → exec .rxdeq s = .next { s with fg := .busy (.rxdeq .q1) }) ∧
    (s.fg = .busy (.rxdeq .q1) → exec .rxdeq s = .next { s with fg := .busy (.rxdeq (.q2 s.rxTail)) }) ∧
    (∀ t, s.fg = .busy (.rxdeq (.q2 t)) →
      exec .rxdeq s =
        if s.rxHead = t then
          .next { s with
            fg := .idle
            rsp := s.rsp ++ [(0x200#12, ⟨.empty, 0⟩)]
            out := { s.out with fgRsp := some ⟨.empty, 0⟩ } }
        else .next { s with fg := .busy (.rxdeq (.q3 t s.rxHead)) }) ∧
    (∀ t h, s.fg = .busy (.rxdeq (.q3 t h)) → t < s.cfg.rcap →
      exec .rxdeq s = .next { s with fg := .busy (.rxdeq (.q4 t h (s.rxSlot t))) }) ∧
    (∀ t h v, s.fg = .busy (.rxdeq (.q4 t h v)) →
      exec .rxdeq s =
        .next { s with
          rxTail := (t + 1) % s.cfg.rcap
          fg := .idle
          rsp := s.rsp ++ [(0x200#12, ⟨.ok, v.toNat⟩)]
          out := { s.out with fgRsp := some ⟨.ok, v.toNat⟩ } }) ∧
    (∀ t h v u, s.fg = .busy (.rxdeq (.q4 t h v)) → exec .rxdeq s = .next u →
      ((t + 1) % s.cfg.rcap = s.rxHead → u.rxEmpty = true) ∧
        (s.cfg.wf = true → s.rxHead < s.cfg.rcap → t < s.cfg.rcap → s.rxHead ≠ t → u.rxFull = false))

/-- RXDEQ with no event in it, on a buffer that is not empty (R105): it answers the oldest byte of the live region,
removes it from there, and changes nothing but `rx_tail`. -/
def Obligations.RxdeqReturnsOldestByte : Prop :=
  ∀ s : State, s.cfg.wf = true → s.indicesOk → s.fg = .idle → s.rxHead ≠ s.rxTail →
    ∃ t v, uninterrupted .rxdeq 5 s = .next t ∧
      t = { s with
        rxTail := (s.rxTail + 1) % s.cfg.rcap
        rsp := s.rsp ++ [(0x200#12, ⟨.ok, v.toNat⟩)]
        out := { s.out with fgRsp := some ⟨.ok, v.toNat⟩ } } ∧
      v = s.rxSlot s.rxTail ∧ s.rxLive = v :: t.rxLive

/-- R106: RXDEQ on an empty buffer ends at Q2 with EMPTY and data 0; nothing is written. -/
def Obligations.RxdeqOnEmptyChangesNothing : Prop :=
  ∀ s : State, s.fg = .idle → s.rxHead = s.rxTail →
    uninterrupted .rxdeq 3 s =
      .next { s with
        rsp := s.rsp ++ [(0x200#12, ⟨.empty, 0⟩)]
        out := { s.out with fgRsp := some ⟨.empty, 0⟩ } }

/-! ### RXEVT and TXEVT -/

/-- R121, R124: RXEVT into a buffer that is not full. The hardware register is read once, the byte is stored at head,
the head published, the event counted; nothing else changes. The last clause is R121's flags sentence. -/
def Obligations.RxevtStoresByte : Prop :=
  ∀ (s : State) (b : Byte), s.rxHead < s.cfg.rcap → (s.rxHead + 1) % s.cfg.rcap ≠ s.rxTail →
    ∃ t, exec (.rxevt b) s = .next t ∧
      t = { s with
        rxBuf := s.rxBuf.store s.rxHead b
        rxHead := (s.rxHead + 1) % s.cfg.rcap
        rxCount := (s.rxCount + 1) % 2 ^ s.cfg.cw
        rxIn := s.rxIn ++ [b]
        out := { s.out with rxRd := true, evCode := some (0x800#12 + b.setWidth 12) } } ∧
      t.rxEmpty = false ∧
      (s.cfg.wf = true → s.rxTail < s.cfg.rcap → t.rxLevel = s.cfg.rcap - 1 → t.rxFull = true)

/-- R122, R124, R209: RXEVT into a full buffer. The hardware register is still read once and the event counted; buffer
and indices stay, the byte is dropped silently. -/
def Obligations.RxevtDropsOnFull : Prop :=
  ∀ (s : State) (b : Byte), (s.rxHead + 1) % s.cfg.rcap = s.rxTail →
    exec (.rxevt b) s =
      .next { s with
        rxCount := (s.rxCount + 1) % 2 ^ s.cfg.cw
        rxIn := s.rxIn ++ [b]
        out := { s.out with rxRd := true, evCode := some (0x800#12 + b.setWidth 12) } }

/-- R123: every RXEVT counts, stored or dropped, and the count wraps to 0. -/
def Obligations.RxevtAlwaysCounts : Prop :=
  ∀ (s t : State) (b : Byte), exec (.rxevt b) s = .next t →
    t.rxCount = (s.rxCount + 1) % 2 ^ s.cfg.cw ∧ (s.rxCount = 2 ^ s.cfg.cw - 1 → t.rxCount = 0)

/-- R125: TXEVT with a byte queued. The oldest byte is handed to the hardware, the tail published, the event counted;
`txie` and all else stay. The last clauses are R125's flags sentence. -/
def Obligations.TxevtSendsOldestByte : Prop :=
  ∀ s : State, s.txTail < s.cfg.tcap → s.txTail ≠ s.txHead →
    ∃ t, exec .txevt s = .next t ∧
      t = { s with
        txTail := (s.txTail + 1) % s.cfg.tcap
        txCount := (s.txCount + 1) % 2 ^ s.cfg.cw
        txOut := s.txOut ++ [s.txSlot s.txTail]
        out := { s.out with txWr := some (s.txSlot s.txTail), evCode := some 0x900#12 } } ∧
      (s.cfg.wf = true → s.txHead < s.cfg.tcap → t.txFull = false) ∧
      ((s.txTail + 1) % s.cfg.tcap = s.txHead → t.txEmpty = true)

/-- R125, R126: TXEVT that finds the buffer empty sends nothing, clears `txie` and counts. -/
def Obligations.TxevtOnEmptyDisarms : Prop :=
  ∀ s : State, s.txTail = s.txHead →
    exec .txevt s =
      .next { s with
        txie := false
        txCount := (s.txCount + 1) % 2 ^ s.cfg.cw
        out := { s.out with evCode := some 0x900#12 } }

/-- R127: every TXEVT counts, sending or idle, and the count wraps to 0. -/
def Obligations.TxevtAlwaysCounts : Prop :=
  ∀ s t : State, exec .txevt s = .next t →
    t.txCount = (s.txCount + 1) % 2 ^ s.cfg.cw ∧ (s.txCount = 2 ^ s.cfg.cw - 1 → t.txCount = 0)

/-- R126: draining `k` queued bytes with nothing in between takes `k + 1` TXEVTs. The first `k` send the live region in
order and leave `txie` as it was; the last finds the buffer empty and clears it; `tx_count` rises by `k + 1`. -/
def Obligations.DrainingTakesOneMoreEvent : Prop :=
  ∀ s : State, s.cfg.wf = true → s.indicesOk →
    (∃ t, uninterrupted .txevt s.txLevel s = .next t ∧
      t.txOut = s.txOut ++ s.txLive ∧ t.txTail = s.txHead ∧ t.txHead = s.txHead ∧ t.txie = s.txie) ∧
    (∃ t, uninterrupted .txevt (s.txLevel + 1) s = .next t ∧
      t.txOut = s.txOut ++ s.txLive ∧ t.txTail = t.txHead ∧ t.txie = false ∧
      t.txCount = (s.txCount + (s.txLevel + 1)) % 2 ^ s.cfg.cw)

/-- R174, R175: an event operation changes neither the sequencer nor its locals and answers no word; entry and return
change no field of the record. -/
def Obligations.EventsLeaveForegroundStanding : Prop :=
  (∀ (s t : State) (i : Instr), i.context = .event → exec i s = .next t → t.fg = s.fg ∧ t.rsp = s.rsp) ∧
    (∀ (s : State) (i : Instr), { s.enterHandler i with out := s.out } = s ∧ s.leaveHandler = s)

/-- Frame of RXEVT (R121 "Never written"): `rx_tail`, `rxie` and the transmit side stay; every slot of both buffers
reads as before except the one it stores to. -/
def Obligations.RxevtFrame : Prop :=
  ∀ (s t : State) (b : Byte), exec (.rxevt b) s = .next t →
    t.rxTail = s.rxTail ∧ t.rxie = s.rxie ∧ t.txHead = s.txHead ∧ t.txTail = s.txTail ∧ t.txCount = s.txCount ∧
      t.txie = s.txie ∧ t.fg = s.fg ∧ t.txOut = s.txOut ∧ t.rsp = s.rsp ∧ t.cfg = s.cfg ∧ t.inputs = s.inputs ∧
      t.epoch = s.epoch ∧ (∀ a, t.txSlot a = s.txSlot a) ∧
      (∀ a, rxevtStores s ≠ some a → t.rxSlot a = s.rxSlot a)

/-- Frame of the operations that store nothing, at every point: RXDEQ, RDTXC, RDRXC, SETUP, TXEVT. Every slot of both
buffers reads as before (R105, R125, R144, R146, R147). -/
def Obligations.NonStoringOperationsKeepEveryByte : Prop :=
  ∀ (s t : State) (i : Instr), i ∈ [.rxdeq, .rdtxc, .rdrxc, .setup, .txevt] → exec i s = .next t →
    (∀ a, t.rxSlot a = s.rxSlot a) ∧ (∀ a, t.txSlot a = s.txSlot a) ∧
      t.cfg = s.cfg ∧ t.inputs = s.inputs ∧ t.epoch = s.epoch

/-- R130: RXEVT and TXEVT commute. From the same state both orders give the same state, `tx_out` and `rx_in`; only
the strobes of the latest step differ. -/
def Obligations.EventsCommute : Prop :=
  ∀ (s : State) (b : Byte), s.indicesOk →
    ∃ s₁ s₂ s₁₂ s₂₁, exec (.rxevt b) s = .next s₁ ∧ exec .txevt s₁ = .next s₁₂ ∧
      exec .txevt s = .next s₂ ∧ exec (.rxevt b) s₂ = .next s₂₁ ∧
      { s₁₂ with out := Strobes.quiet } = { s₂₁ with out := Strobes.quiet }

/-- R104, R108: RXEVT commutes with every micro-step of TXENQ, and TXEVT with every micro-step of RXDEQ. -/
def Obligations.OppositeDirectionsCommute : Prop :=
  ∀ s : State, s.Inv →
    (∀ b c, ∃ s₁ s₂ t, exec (.rxevt b) s = .next s₁ ∧ exec (.txenq c) s₁ = .next t ∧
      exec (.txenq c) s = .next s₂ ∧ exec (.rxevt b) s₂ = .next t) ∧
    (∃ s₁ s₂ t, exec .txevt s = .next s₁ ∧ exec .rxdeq s₁ = .next t ∧
      exec .rxdeq s = .next s₂ ∧ exec .txevt s₂ = .next t)

/-! ### SETUP and diagnostics -/

/-- R140, R142, R144: SETUP is accepted and then, in one micro-step, zeroes indices and counters, disarms the transmit
source, configures the hardware, arms the receive source and answers OK; the buffers and all else stay, and the flags
say empty. -/
def Obligations.SetupResetsRecordAndArmsReception : Prop :=
  ∀ s : State,
    (s.fg = .idle → exec .setup s = .next { s with fg := .busy .setup }) ∧
    (s.fg = .busy .setup →
      ∃ t, exec .setup s = .next t ∧
        t = { s with
          txie := false
          rxHead := 0
          rxTail := 0
          txHead := 0
          txTail := 0
          rxCount := 0
          txCount := 0
          rxie := true
          fg := .idle
          rsp := s.rsp ++ [(0x500#12, ⟨.ok, 0⟩)]
          out := { s.out with cfgStrobe := true, fgRsp := some ⟨.ok, 0⟩ } } ∧
        t.rxEmpty = true ∧ t.txEmpty = true ∧ (s.cfg.wf = true → t.rxFull = false ∧ t.txFull = false))

/-- R141: SETUP is idempotent. A second SETUP leaves the same state, but for its own response in the trace. -/
def Obligations.SetupIsIdempotent : Prop :=
  ∀ s : State, s.fg = .idle →
    ∃ t, uninterrupted .setup 2 s = .next t ∧
      uninterrupted .setup 2 t = .next { t with rsp := t.rsp ++ [(0x500#12, ⟨.ok, 0⟩)] }

/-- R146: RDTXC is accepted and then answers the whole transmit counter in one micro-step and writes nothing. That the
value is the number of TXEVTs since the last SETUP or reset modulo `2^CW` is said of every step over the ledger, which
is the model's (assumption 18): what the ledger then counts is what the counter then holds. -/
def Obligations.RdtxcAnswersTransmitCounter : Prop :=
  ∀ s : State,
    (s.fg = .idle → exec .rdtxc s = .next { s with fg := .busy .rdtxc }) ∧
    (s.fg = .busy .rdtxc →
      exec .rdtxc s =
        .next { s with
          fg := .idle
          rsp := s.rsp ++ [(0x300#12, ⟨.ok, s.txCount⟩)]
          out := { s.out with fgRsp := some ⟨.ok, s.txCount⟩ } }) ∧
    (∀ (l : Ledger) (t : State), s.Inv → l.balanced s → step s = .next t →
      t.txCount = ((l.observe s t).txSent.length + (l.observe s t).txIdle) % 2 ^ t.cfg.cw)

/-- R147: RDRXC is accepted and then answers the whole receive counter in one micro-step and writes nothing. That the
value is the number of RXEVTs since the last SETUP or reset modulo `2^CW` is said of every step over the ledger, which
is the model's (assumption 18): what the ledger then counts is what the counter then holds. -/
def Obligations.RdrxcAnswersReceiveCounter : Prop :=
  ∀ s : State,
    (s.fg = .idle → exec .rdrxc s = .next { s with fg := .busy .rdrxc }) ∧
    (s.fg = .busy .rdrxc →
      exec .rdrxc s =
        .next { s with
          fg := .idle
          rsp := s.rsp ++ [(0x400#12, ⟨.ok, s.rxCount⟩)]
          out := { s.out with fgRsp := some ⟨.ok, s.rxCount⟩ } }) ∧
    (∀ (l : Ledger) (t : State), s.Inv → l.balanced s → step s = .next t →
      t.rxCount = ((l.observe s t).rxStored.length + (l.observe s t).rxDropped) % 2 ^ t.cfg.cw)

/-! ### Whole-machine rules -/

/-- R29: single writer per field. In every step `rx_head` is written only by RXEVT, `rx_tail` only by RXDEQ, `tx_head`
only by TXENQ, `tx_tail` only by TXEVT; the exceptions are SETUP and hardware reset. -/
def Obligations.EachIndexHasOneWriter : Prop :=
  ∀ s t : State, step s = .next t → nextKind s s.input ≠ .reset →
    ¬(nextKind s s.input = .fgStep ∧ s.fg = .busy .setup) →
      (t.rxHead ≠ s.rxHead → ∃ b, nextKind s s.input = .evRx b) ∧
      (t.rxTail ≠ s.rxTail → nextKind s s.input = .fgStep ∧ ∃ p, s.fg = .busy (.rxdeq p)) ∧
      (t.txHead ≠ s.txHead → nextKind s s.input = .fgStep ∧ ∃ p, s.fg = .busy (.txenq p)) ∧
      (t.txTail ≠ s.txTail → nextKind s s.input = .evTx)

/-- R171: the life cycle of `txie` in every step, row by row. -/
def Obligations.TxieLifeCycle : Prop :=
  ∀ s t : State, step s = .next t →
    (nextKind s s.input = .reset → t.txie = false) ∧
    (nextKind s s.input = .fgStep →
      (s.fg = .busy .setup → t.txie = false) ∧
        (∀ b h next u, s.fg = .busy (.txenq (.e5 b h next u)) → t.txie = true) ∧
        (s.fg ≠ .busy .setup → (∀ b h next u, s.fg ≠ .busy (.txenq (.e5 b h next u))) → t.txie = s.txie)) ∧
    (nextKind s s.input = .evTx → s.txie = true ∧ (t.txie = false ↔ s.txTail = s.txHead)) ∧
    (∀ b, nextKind s s.input = .evRx b → t.txie = s.txie) ∧
    (∀ w, nextKind s s.input = .fgAccept w → t.txie = s.txie) ∧
    (nextKind s s.input = .hold → t.txie = s.txie)

/-- R172: the life cycle of `rxie`: 0 after reset, 1 after SETUP, never changed by anything else. -/
def Obligations.RxieLifeCycle : Prop :=
  ∀ s t : State, step s = .next t →
    (nextKind s s.input = .reset → t.rxie = false) ∧
    (nextKind s s.input = .fgStep → s.fg = .busy .setup → t.rxie = true) ∧
    (nextKind s s.input ≠ .reset → ¬(nextKind s s.input = .fgStep ∧ s.fg = .busy .setup) → t.rxie = s.rxie)

/-- R19, R174: bounded time. Every micro-step brings the operation in flight closer to its answer, of which it is at
most five away when accepted, the sequencer is idle again exactly when a response is emitted, and no event or idle
step moves it. -/
def Obligations.EveryOperationAnswersInFiveMicroSteps : Prop :=
  ∀ s t : State, s.Inv → step s = .next t →
    (nextKind s s.input = .fgStep →
      t.fg.remaining < s.fg.remaining ∧ (t.fg = .idle ↔ t.out.fgRsp.isSome = true)) ∧
    (∀ w, nextKind s s.input = .fgAccept w →
      t.fg.remaining ≤ 5 ∧ (t.fg = .idle ↔ t.out.fgRsp.isSome = true)) ∧
    (nextKind s s.input ≠ .fgStep → (∀ w, nextKind s s.input ≠ .fgAccept w) → nextKind s s.input ≠ .reset →
      t.fg = s.fg ∧ t.out.fgRsp = none)

/-- The ledger of R205 (assumption 18) is balanced at reset, where nothing has happened yet. -/
def Obligations.LedgerBalancedAtReset : Prop := Ledger.empty.balanced State.reset

/-- R205 I6 and I7, R198: in every step from a state that meets the invariant, what was published equals what was sent
and what is queued, in order; what was stored equals what was dequeued and what is queued, in order; each counter
equals its events modulo `2^CW`; idle TXEVTs stay at most the successful TXENQs; and the launch premise of R193,
`State.launched`, holds exactly when a SETUP has completed since the last reset. The ledger is the model's
(assumption 18). -/
def Obligations.LedgerStaysBalanced : Prop :=
  ∀ (s t : State) (l : Ledger), s.Inv → l.balanced s → step s = .next t → (l.observe s t).balanced t

/-- R206: from an empty transmit buffer with no TXEVT between them, exactly TCAP - 1 TXENQs succeed and the TCAP-th
answers FULL; a TXEVT that sends a byte frees one slot; from an empty receive buffer RCAP - 1 RXEVTs store and the next
drops, each counted. The receive clause has the launch premise of R193 (no RXEVT can occur without it). The transmit
clauses hold of every state: of a launched one on doc00's authority, before the first SETUP on decision D13 alone
(assumption 22); the run leaves the premise as it was. Scripts are the model's (assumption 14). -/
def Obligations.CapacityIsOneLessThanSlots : Prop :=
  (∀ (s : State) (bs : List Byte), s.Inv → s.fg = .idle → s.txHead = s.txTail → bs.length = s.cfg.tcap →
    s.inputs = Script.txenqs bs →
      ∃ t, core.run (6 * s.cfg.tcap) s = .next t ∧
        t.rsp.map (fun r => r.2.st) =
          s.rsp.map (fun r => r.2.st) ++ List.replicate (s.cfg.tcap - 1) .ok ++ [.full] ∧
        t.txLive = bs.take (s.cfg.tcap - 1) ∧ t.launched = s.launched) ∧
  (∀ s : State, s.Inv → s.txTail ≠ s.txHead →
    ∃ t, exec .txevt s = .next t ∧ t.txLevel + 1 = s.txLevel ∧ t.txFull = false) ∧
  (∀ (s : State) (bs : List Byte), s.Inv → s.launched = true → s.rxHead = s.rxTail → bs.length = s.cfg.rcap →
    s.inputs = Script.inject bs →
      ∃ t, core.run s.cfg.rcap s = .next t ∧
        t.rxLive = bs.take (s.cfg.rcap - 1) ∧ t.rxCount = (s.rxCount + s.cfg.rcap) % 2 ^ s.cfg.cw)

/-- R207: bytes injected into an empty receive buffer, at most RCAP - 1 of them, are dequeued in the order they were
injected. `s.launched = true` is the launch premise of R193. Scripts are the model's (assumption 14). -/
def Obligations.ReceivedBytesComeOutInOrder : Prop :=
  ∀ (s : State) (bs : List Byte), s.Inv → s.fg = .idle → s.launched = true → s.rxHead = s.rxTail →
    bs.length ≤ s.cfg.rcap - 1 → s.inputs = Script.inject bs ++ Script.dequeues bs.length →
      ∃ t, core.run (7 * bs.length) s = .next t ∧
        t.rsp = s.rsp ++ bs.map (fun b => (0x200#12, ⟨.ok, b.toNat⟩))

/-- R208: empty after drain. After K stored bytes and K RXDEQs the next RXDEQ answers EMPTY; after K TXENQs and K
sending TXEVTs, which send the bytes in order, the next TXEVT is idle and disarms. With no byte enqueued the source must
be armed already for a TXEVT to occur; else E5 arms it, as from the state after SETUP. The receive clause has the launch
premise of R193. The transmit clause holds of every state: of a launched one on doc00's authority, before the first
SETUP on decision D13 alone (assumption 22); the run leaves the premise as it was. Scripts are the model's
(assumption 14). -/
def Obligations.BuffersAreEmptyAfterDraining : Prop :=
  (∀ (s : State) (bs : List Byte), s.Inv → s.fg = .idle → s.launched = true → s.rxHead = s.rxTail →
    bs.length ≤ s.cfg.rcap - 1 → s.inputs = Script.inject bs ++ Script.dequeues (bs.length + 1) →
      ∃ t, core.run (7 * bs.length + 6) s = .next t ∧ t.rxHead = t.rxTail ∧
        t.rsp = s.rsp ++ bs.map (fun b => (0x200#12, ⟨.ok, b.toNat⟩)) ++ [(0x200#12, ⟨.empty, 0⟩)]) ∧
  (∀ (s : State) (bs : List Byte), s.Inv → s.fg = .idle → (s.txie = true ∨ bs ≠ []) → s.txHead = s.txTail →
    bs.length ≤ s.cfg.tcap - 1 → s.inputs = Script.txenqs bs ++ Script.drain (bs.length + 1) →
      ∃ t, core.run (7 * bs.length + 1) s = .next t ∧ t.txHead = t.txTail ∧ t.txie = false ∧
        t.txOut = s.txOut ++ bs ∧ t.txCount = (s.txCount + (bs.length + 1)) % 2 ^ s.cfg.cw ∧
        t.launched = s.launched)

/-- R210: re-arm. The TXEVT that finds the buffer empty clears `txie`; the next successful TXENQ sets it once, at its
step E5, and a further TXENQ leaves it set at every one of its steps. It holds of every state: of a launched one (R193)
on doc00's authority, before the first SETUP on decision D13 alone (assumption 22); the run leaves the premise as it
was. -/
def Obligations.EnqueueRearmsTransmitSourceOnce : Prop :=
  ∀ (s : State) (b : Byte), s.cfg.wf = true → s.indicesOk → s.fg = .idle → s.txHead = s.txTail →
    ∃ s₁, exec .txevt s = .next s₁ ∧ s₁.txie = false ∧
      (∀ k, k ≤ 5 → ∃ t, uninterrupted (.txenq b) k s₁ = .next t ∧ t.txie = false) ∧
      (∃ s₂, uninterrupted (.txenq b) 6 s₁ = .next s₂ ∧ s₂.txie = true ∧ s₂.fg = .idle ∧
        s₂.launched = s.launched ∧
        ∀ c k, k ≤ 6 → ∃ t, uninterrupted (.txenq c) k s₂ = .next t ∧ t.txie = true)

/-- R198 (90_conflicts C5): the idle-event race. With `txie = 1` over an empty buffer before E4, two TXEVTs between E4
and E5 send the new byte and find the buffer empty; E5 then answers OK with `txie = 1` over an empty buffer, and the
next TXEVT is idle. One byte sent once, three events counted. -/
def Obligations.ArmedOverEmptyBufferAfterRace : Prop :=
  ∀ (s : State) (b : Byte) (h next u : Nat), s.Inv → s.fg = .busy (.txenq (.e4 b h next u)) →
    s.txHead = s.txTail → s.txie = true →
      ∃ s₁ s₂ s₃ s₄ s₅, exec (.txenq b) s = .next s₁ ∧ exec .txevt s₁ = .next s₂ ∧ exec .txevt s₂ = .next s₃ ∧
        exec (.txenq b) s₃ = .next s₄ ∧ exec .txevt s₄ = .next s₅ ∧
        s₃.txie = false ∧ s₄.fg = .idle ∧ s₄.txie = true ∧ s₄.txHead = s₄.txTail ∧
        s₄.rsp = s.rsp ++ [(0x100#12 + b.setWidth 12, ⟨.ok, 0⟩)] ∧
        s₅.txie = false ∧ s₅.txOut = s.txOut ++ [b] ∧ s₅.txCount = (s.txCount + 3) % 2 ^ s.cfg.cw

/-- R43, R44 (93 U1): unspecified buffer bytes are never observed. In a state that meets the invariant a step does the
same whatever the free bytes are: another epoch, which gives other free bytes, changes nothing but the epoch. -/
def Obligations.UnspecifiedBytesAreUnobservable : Prop :=
  ∀ (s t : State) (e : Nat), s.Inv → step s = .next t →
    ∃ e', step { s with epoch := e } = .next { t with epoch := e' }

/-- R32: the counters decide nothing. With other counter values every step but the answer of RDTXC and RDRXC does the
same to every other field and to every byte on either path. -/
def Obligations.CountersDecideNothing : Prop :=
  ∀ (s t : State) (r c : Nat), step s = .next t →
    ¬(nextKind s s.input = .fgStep ∧ (s.fg = .busy .rdtxc ∨ s.fg = .busy .rdrxc)) →
      ∃ r' c', step { s with rxCount := r, txCount := c } = .next { t with rxCount := r', txCount := c' }

/-- R211: in a quiescent state with `tx_ready` asserted the transmit buffer is empty and `txie = 0`. -/
def Obligations.QuiescentReadyMeansDrained : Prop :=
  ∀ s : State, s.Inv → s.quiescent = true → s.input.txReady = true → s.txEmpty = true ∧ s.txie = false
end

