-- ==== Sys2Proof/Laws/Decode.lean ====
section
/-! SUPPORT. The fields of an operation word and the words of the operations (30_encoding R80, R82). -/

namespace Sys2Proof

theorem opc_toNat (w : OpWord) : (opc w).toNat = w.toNat / 256 := by
  have := w.isLt
  simp only [opc, BitVec.extractLsb'_toNat, Nat.shiftRight_eq_div_pow]
  omega

theorem dat_toNat (w : OpWord) : (dat w).toNat = w.toNat % 256 := by
  simp [dat, BitVec.extractLsb'_toNat]

theorem opc_eq_iff (w : OpWord) (k : BitVec 4) : opc w = k ↔ w.toNat / 256 = k.toNat := by
  rw [← BitVec.toNat_inj, opc_toNat]

theorem word_toNat (o : BitVec 4) (b : Byte) : (o ++ b : OpWord).toNat = o.toNat * 256 + b.toNat := by
  have := b.isLt
  rw [BitVec.toNat_append, ← Nat.shiftLeft_add_eq_or_of_lt b.isLt, Nat.shiftLeft_eq]

@[simp] theorem opc_word (o : BitVec 4) (b : Byte) : opc (o ++ b : OpWord) = o := by
  have := b.isLt
  rw [opc_eq_iff, word_toNat]
  omega

@[simp] theorem dat_word (o : BitVec 4) (b : Byte) : dat (o ++ b : OpWord) = b := by
  have := b.isLt
  rw [← BitVec.toNat_inj, dat_toNat, word_toNat]
  omega

/-- A word is its two fields, `opc` above `dat` (R80). -/
theorem word_of_fields (w : OpWord) : (opc w ++ dat w : OpWord) = w := by
  rw [← BitVec.toNat_inj, word_toNat, opc_toNat, dat_toNat]
  omega

theorem word_eq_iff (w : OpWord) (o : BitVec 4) (b : Byte) : w = (o ++ b : OpWord) ↔ opc w = o ∧ dat w = b := by
  constructor
  · rintro rfl; simp
  · rintro ⟨rfl, rfl⟩; exact (word_of_fields w).symm

/-- `0x100 + b`, `0x800 + b`: a code above a byte, as R82 writes the words with an operand. -/
theorem add_setWidth_eq_word (o : BitVec 4) (b : Byte) :
    (o ++ 0x00#8 : OpWord) + b.setWidth 12 = (o ++ b : OpWord) := by
  have := b.isLt
  have := o.isLt
  rw [← BitVec.toNat_inj, BitVec.toNat_add, word_toNat, word_toNat, BitVec.toNat_setWidth]
  simp only [BitVec.toNat_ofNat]
  omega

@[simp] theorem opc_encode (i : Instr) : opc (encode i) = i.opcode := opc_word _ _

@[simp] theorem dat_encode (i : Instr) : dat (encode i) = i.operand := dat_word _ _

theorem encode_txenq (b : Byte) : encode (.txenq b) = 0x100#12 + b.setWidth 12 :=
  (add_setWidth_eq_word 0x1#4 b).symm

theorem encode_rxevt (b : Byte) : encode (.rxevt b) = 0x800#12 + b.setWidth 12 :=
  (add_setWidth_eq_word 0x8#4 b).symm

end Sys2Proof
end

