-- ==== Sys2Proof/Laws/State.lean ====
section
/-! SUPPORT. One lemma per field per named update of State, each true by rfl, so that no proof unfolds a record
update. -/

namespace Sys2Proof.Machine

variable (s : State)

@[simp] theorem State.setFg_rxBuf (f : Fg) : (s.setFg f).rxBuf = s.rxBuf := rfl
@[simp] theorem State.setFg_txBuf (f : Fg) : (s.setFg f).txBuf = s.txBuf := rfl
@[simp] theorem State.setFg_rxHead (f : Fg) : (s.setFg f).rxHead = s.rxHead := rfl
@[simp] theorem State.setFg_rxTail (f : Fg) : (s.setFg f).rxTail = s.rxTail := rfl
@[simp] theorem State.setFg_txHead (f : Fg) : (s.setFg f).txHead = s.txHead := rfl
@[simp] theorem State.setFg_txTail (f : Fg) : (s.setFg f).txTail = s.txTail := rfl
@[simp] theorem State.setFg_rxCount (f : Fg) : (s.setFg f).rxCount = s.rxCount := rfl
@[simp] theorem State.setFg_txCount (f : Fg) : (s.setFg f).txCount = s.txCount := rfl
@[simp] theorem State.setFg_rxie (f : Fg) : (s.setFg f).rxie = s.rxie := rfl
@[simp] theorem State.setFg_txie (f : Fg) : (s.setFg f).txie = s.txie := rfl
@[simp] theorem State.setFg_fg (f : Fg) : (s.setFg f).fg = f := rfl
@[simp] theorem State.setFg_txOut (f : Fg) : (s.setFg f).txOut = s.txOut := rfl
@[simp] theorem State.setFg_rxIn (f : Fg) : (s.setFg f).rxIn = s.rxIn := rfl
@[simp] theorem State.setFg_rsp (f : Fg) : (s.setFg f).rsp = s.rsp := rfl
@[simp] theorem State.setFg_out (f : Fg) : (s.setFg f).out = s.out := rfl
@[simp] theorem State.setFg_inputs (f : Fg) : (s.setFg f).inputs = s.inputs := rfl
@[simp] theorem State.setFg_epoch (f : Fg) : (s.setFg f).epoch = s.epoch := rfl
@[simp] theorem State.setFg_cfg (f : Fg) : (s.setFg f).cfg = s.cfg := rfl

@[simp] theorem State.respond_rxBuf (w : OpWord) (st : Status) (d : Nat) : (s.respond w st d).rxBuf = s.rxBuf := rfl
@[simp] theorem State.respond_txBuf (w : OpWord) (st : Status) (d : Nat) : (s.respond w st d).txBuf = s.txBuf := rfl
@[simp] theorem State.respond_rxHead (w : OpWord) (st : Status) (d : Nat) :
    (s.respond w st d).rxHead = s.rxHead := rfl
@[simp] theorem State.respond_rxTail (w : OpWord) (st : Status) (d : Nat) :
    (s.respond w st d).rxTail = s.rxTail := rfl
@[simp] theorem State.respond_txHead (w : OpWord) (st : Status) (d : Nat) :
    (s.respond w st d).txHead = s.txHead := rfl
@[simp] theorem State.respond_txTail (w : OpWord) (st : Status) (d : Nat) :
    (s.respond w st d).txTail = s.txTail := rfl
@[simp] theorem State.respond_rxCount (w : OpWord) (st : Status) (d : Nat) :
    (s.respond w st d).rxCount = s.rxCount := rfl
@[simp] theorem State.respond_txCount (w : OpWord) (st : Status) (d : Nat) :
    (s.respond w st d).txCount = s.txCount := rfl
@[simp] theorem State.respond_rxie (w : OpWord) (st : Status) (d : Nat) : (s.respond w st d).rxie = s.rxie := rfl
@[simp] theorem State.respond_txie (w : OpWord) (st : Status) (d : Nat) : (s.respond w st d).txie = s.txie := rfl
@[simp] theorem State.respond_fg (w : OpWord) (st : Status) (d : Nat) : (s.respond w st d).fg = .idle := rfl
@[simp] theorem State.respond_txOut (w : OpWord) (st : Status) (d : Nat) : (s.respond w st d).txOut = s.txOut := rfl
@[simp] theorem State.respond_rxIn (w : OpWord) (st : Status) (d : Nat) : (s.respond w st d).rxIn = s.rxIn := rfl
@[simp] theorem State.respond_rsp (w : OpWord) (st : Status) (d : Nat) :
    (s.respond w st d).rsp = s.rsp ++ [(w, ⟨st, d⟩)] := rfl
@[simp] theorem State.respond_out (w : OpWord) (st : Status) (d : Nat) :
    (s.respond w st d).out = { s.out with fgRsp := some ⟨st, d⟩ } := rfl
@[simp] theorem State.respond_inputs (w : OpWord) (st : Status) (d : Nat) :
    (s.respond w st d).inputs = s.inputs := rfl
@[simp] theorem State.respond_epoch (w : OpWord) (st : Status) (d : Nat) : (s.respond w st d).epoch = s.epoch := rfl
@[simp] theorem State.respond_cfg (w : OpWord) (st : Status) (d : Nat) : (s.respond w st d).cfg = s.cfg := rfl

@[simp] theorem State.hwReadRx_rxBuf (b : Byte) : (s.hwReadRx b).rxBuf = s.rxBuf := rfl
@[simp] theorem State.hwReadRx_txBuf (b : Byte) : (s.hwReadRx b).txBuf = s.txBuf := rfl
@[simp] theorem State.hwReadRx_rxHead (b : Byte) : (s.hwReadRx b).rxHead = s.rxHead := rfl
@[simp] theorem State.hwReadRx_rxTail (b : Byte) : (s.hwReadRx b).rxTail = s.rxTail := rfl
@[simp] theorem State.hwReadRx_txHead (b : Byte) : (s.hwReadRx b).txHead = s.txHead := rfl
@[simp] theorem State.hwReadRx_txTail (b : Byte) : (s.hwReadRx b).txTail = s.txTail := rfl
@[simp] theorem State.hwReadRx_rxCount (b : Byte) : (s.hwReadRx b).rxCount = s.rxCount := rfl
@[simp] theorem State.hwReadRx_txCount (b : Byte) : (s.hwReadRx b).txCount = s.txCount := rfl
@[simp] theorem State.hwReadRx_rxie (b : Byte) : (s.hwReadRx b).rxie = s.rxie := rfl
@[simp] theorem State.hwReadRx_txie (b : Byte) : (s.hwReadRx b).txie = s.txie := rfl
@[simp] theorem State.hwReadRx_fg (b : Byte) : (s.hwReadRx b).fg = s.fg := rfl
@[simp] theorem State.hwReadRx_txOut (b : Byte) : (s.hwReadRx b).txOut = s.txOut := rfl
@[simp] theorem State.hwReadRx_rxIn (b : Byte) : (s.hwReadRx b).rxIn = s.rxIn ++ [b] := rfl
@[simp] theorem State.hwReadRx_rsp (b : Byte) : (s.hwReadRx b).rsp = s.rsp := rfl
@[simp] theorem State.hwReadRx_out (b : Byte) : (s.hwReadRx b).out = { s.out with rxRd := true } := rfl
@[simp] theorem State.hwReadRx_inputs (b : Byte) : (s.hwReadRx b).inputs = s.inputs := rfl
@[simp] theorem State.hwReadRx_epoch (b : Byte) : (s.hwReadRx b).epoch = s.epoch := rfl
@[simp] theorem State.hwReadRx_cfg (b : Byte) : (s.hwReadRx b).cfg = s.cfg := rfl

@[simp] theorem State.hwWriteTx_rxBuf (v : Byte) : (s.hwWriteTx v).rxBuf = s.rxBuf := rfl
@[simp] theorem State.hwWriteTx_txBuf (v : Byte) : (s.hwWriteTx v).txBuf = s.txBuf := rfl
@[simp] theorem State.hwWriteTx_rxHead (v : Byte) : (s.hwWriteTx v).rxHead = s.rxHead := rfl
@[simp] theorem State.hwWriteTx_rxTail (v : Byte) : (s.hwWriteTx v).rxTail = s.rxTail := rfl
@[simp] theorem State.hwWriteTx_txHead (v : Byte) : (s.hwWriteTx v).txHead = s.txHead := rfl
@[simp] theorem State.hwWriteTx_txTail (v : Byte) : (s.hwWriteTx v).txTail = s.txTail := rfl
@[simp] theorem State.hwWriteTx_rxCount (v : Byte) : (s.hwWriteTx v).rxCount = s.rxCount := rfl
@[simp] theorem State.hwWriteTx_txCount (v : Byte) : (s.hwWriteTx v).txCount = s.txCount := rfl
@[simp] theorem State.hwWriteTx_rxie (v : Byte) : (s.hwWriteTx v).rxie = s.rxie := rfl
@[simp] theorem State.hwWriteTx_txie (v : Byte) : (s.hwWriteTx v).txie = s.txie := rfl
@[simp] theorem State.hwWriteTx_fg (v : Byte) : (s.hwWriteTx v).fg = s.fg := rfl
@[simp] theorem State.hwWriteTx_txOut (v : Byte) : (s.hwWriteTx v).txOut = s.txOut ++ [v] := rfl
@[simp] theorem State.hwWriteTx_rxIn (v : Byte) : (s.hwWriteTx v).rxIn = s.rxIn := rfl
@[simp] theorem State.hwWriteTx_rsp (v : Byte) : (s.hwWriteTx v).rsp = s.rsp := rfl
@[simp] theorem State.hwWriteTx_out (v : Byte) : (s.hwWriteTx v).out = { s.out with txWr := some v } := rfl
@[simp] theorem State.hwWriteTx_inputs (v : Byte) : (s.hwWriteTx v).inputs = s.inputs := rfl
@[simp] theorem State.hwWriteTx_epoch (v : Byte) : (s.hwWriteTx v).epoch = s.epoch := rfl
@[simp] theorem State.hwWriteTx_cfg (v : Byte) : (s.hwWriteTx v).cfg = s.cfg := rfl

@[simp] theorem State.hwConfigure_rxBuf : (s.hwConfigure).rxBuf = s.rxBuf := rfl
@[simp] theorem State.hwConfigure_txBuf : (s.hwConfigure).txBuf = s.txBuf := rfl
@[simp] theorem State.hwConfigure_rxHead : (s.hwConfigure).rxHead = s.rxHead := rfl
@[simp] theorem State.hwConfigure_rxTail : (s.hwConfigure).rxTail = s.rxTail := rfl
@[simp] theorem State.hwConfigure_txHead : (s.hwConfigure).txHead = s.txHead := rfl
@[simp] theorem State.hwConfigure_txTail : (s.hwConfigure).txTail = s.txTail := rfl
@[simp] theorem State.hwConfigure_rxCount : (s.hwConfigure).rxCount = s.rxCount := rfl
@[simp] theorem State.hwConfigure_txCount : (s.hwConfigure).txCount = s.txCount := rfl
@[simp] theorem State.hwConfigure_rxie : (s.hwConfigure).rxie = s.rxie := rfl
@[simp] theorem State.hwConfigure_txie : (s.hwConfigure).txie = s.txie := rfl
@[simp] theorem State.hwConfigure_fg : (s.hwConfigure).fg = s.fg := rfl
@[simp] theorem State.hwConfigure_txOut : (s.hwConfigure).txOut = s.txOut := rfl
@[simp] theorem State.hwConfigure_rxIn : (s.hwConfigure).rxIn = s.rxIn := rfl
@[simp] theorem State.hwConfigure_rsp : (s.hwConfigure).rsp = s.rsp := rfl
@[simp] theorem State.hwConfigure_out : (s.hwConfigure).out = { s.out with cfgStrobe := true } := rfl
@[simp] theorem State.hwConfigure_inputs : (s.hwConfigure).inputs = s.inputs := rfl
@[simp] theorem State.hwConfigure_epoch : (s.hwConfigure).epoch = s.epoch := rfl
@[simp] theorem State.hwConfigure_cfg : (s.hwConfigure).cfg = s.cfg := rfl

@[simp] theorem State.enterHandler_rxBuf (i : Instr) : (s.enterHandler i).rxBuf = s.rxBuf := rfl
@[simp] theorem State.enterHandler_txBuf (i : Instr) : (s.enterHandler i).txBuf = s.txBuf := rfl
@[simp] theorem State.enterHandler_rxHead (i : Instr) : (s.enterHandler i).rxHead = s.rxHead := rfl
@[simp] theorem State.enterHandler_rxTail (i : Instr) : (s.enterHandler i).rxTail = s.rxTail := rfl
@[simp] theorem State.enterHandler_txHead (i : Instr) : (s.enterHandler i).txHead = s.txHead := rfl
@[simp] theorem State.enterHandler_txTail (i : Instr) : (s.enterHandler i).txTail = s.txTail := rfl
@[simp] theorem State.enterHandler_rxCount (i : Instr) : (s.enterHandler i).rxCount = s.rxCount := rfl
@[simp] theorem State.enterHandler_txCount (i : Instr) : (s.enterHandler i).txCount = s.txCount := rfl
@[simp] theorem State.enterHandler_rxie (i : Instr) : (s.enterHandler i).rxie = s.rxie := rfl
@[simp] theorem State.enterHandler_txie (i : Instr) : (s.enterHandler i).txie = s.txie := rfl
@[simp] theorem State.enterHandler_fg (i : Instr) : (s.enterHandler i).fg = s.fg := rfl
@[simp] theorem State.enterHandler_txOut (i : Instr) : (s.enterHandler i).txOut = s.txOut := rfl
@[simp] theorem State.enterHandler_rxIn (i : Instr) : (s.enterHandler i).rxIn = s.rxIn := rfl
@[simp] theorem State.enterHandler_rsp (i : Instr) : (s.enterHandler i).rsp = s.rsp := rfl
@[simp] theorem State.enterHandler_out (i : Instr) :
    (s.enterHandler i).out = { s.out with evCode := some (encode i) } := rfl
@[simp] theorem State.enterHandler_inputs (i : Instr) : (s.enterHandler i).inputs = s.inputs := rfl
@[simp] theorem State.enterHandler_epoch (i : Instr) : (s.enterHandler i).epoch = s.epoch := rfl
@[simp] theorem State.enterHandler_cfg (i : Instr) : (s.enterHandler i).cfg = s.cfg := rfl

@[simp] theorem State.beginStep_rxBuf : (s.beginStep).rxBuf = s.rxBuf := rfl
@[simp] theorem State.beginStep_txBuf : (s.beginStep).txBuf = s.txBuf := rfl
@[simp] theorem State.beginStep_rxHead : (s.beginStep).rxHead = s.rxHead := rfl
@[simp] theorem State.beginStep_rxTail : (s.beginStep).rxTail = s.rxTail := rfl
@[simp] theorem State.beginStep_txHead : (s.beginStep).txHead = s.txHead := rfl
@[simp] theorem State.beginStep_txTail : (s.beginStep).txTail = s.txTail := rfl
@[simp] theorem State.beginStep_rxCount : (s.beginStep).rxCount = s.rxCount := rfl
@[simp] theorem State.beginStep_txCount : (s.beginStep).txCount = s.txCount := rfl
@[simp] theorem State.beginStep_rxie : (s.beginStep).rxie = s.rxie := rfl
@[simp] theorem State.beginStep_txie : (s.beginStep).txie = s.txie := rfl
@[simp] theorem State.beginStep_fg : (s.beginStep).fg = s.fg := rfl
@[simp] theorem State.beginStep_txOut : (s.beginStep).txOut = s.txOut := rfl
@[simp] theorem State.beginStep_rxIn : (s.beginStep).rxIn = s.rxIn := rfl
@[simp] theorem State.beginStep_rsp : (s.beginStep).rsp = s.rsp := rfl
@[simp] theorem State.beginStep_out : (s.beginStep).out = Strobes.quiet := rfl
@[simp] theorem State.beginStep_inputs : (s.beginStep).inputs = s.inputs.tail := rfl
@[simp] theorem State.beginStep_epoch : (s.beginStep).epoch = s.epoch := rfl
@[simp] theorem State.beginStep_cfg : (s.beginStep).cfg = s.cfg := rfl

@[simp] theorem State.countRx_rxBuf : (s.countRx).rxBuf = s.rxBuf := rfl
@[simp] theorem State.countRx_txBuf : (s.countRx).txBuf = s.txBuf := rfl
@[simp] theorem State.countRx_rxHead : (s.countRx).rxHead = s.rxHead := rfl
@[simp] theorem State.countRx_rxTail : (s.countRx).rxTail = s.rxTail := rfl
@[simp] theorem State.countRx_txHead : (s.countRx).txHead = s.txHead := rfl
@[simp] theorem State.countRx_txTail : (s.countRx).txTail = s.txTail := rfl
@[simp] theorem State.countRx_rxCount : (s.countRx).rxCount = countUp s.cfg.cw s.rxCount := rfl
@[simp] theorem State.countRx_txCount : (s.countRx).txCount = s.txCount := rfl
@[simp] theorem State.countRx_rxie : (s.countRx).rxie = s.rxie := rfl
@[simp] theorem State.countRx_txie : (s.countRx).txie = s.txie := rfl
@[simp] theorem State.countRx_fg : (s.countRx).fg = s.fg := rfl
@[simp] theorem State.countRx_txOut : (s.countRx).txOut = s.txOut := rfl
@[simp] theorem State.countRx_rxIn : (s.countRx).rxIn = s.rxIn := rfl
@[simp] theorem State.countRx_rsp : (s.countRx).rsp = s.rsp := rfl
@[simp] theorem State.countRx_out : (s.countRx).out = s.out := rfl
@[simp] theorem State.countRx_inputs : (s.countRx).inputs = s.inputs := rfl
@[simp] theorem State.countRx_epoch : (s.countRx).epoch = s.epoch := rfl
@[simp] theorem State.countRx_cfg : (s.countRx).cfg = s.cfg := rfl

@[simp] theorem State.countTx_rxBuf : (s.countTx).rxBuf = s.rxBuf := rfl
@[simp] theorem State.countTx_txBuf : (s.countTx).txBuf = s.txBuf := rfl
@[simp] theorem State.countTx_rxHead : (s.countTx).rxHead = s.rxHead := rfl
@[simp] theorem State.countTx_rxTail : (s.countTx).rxTail = s.rxTail := rfl
@[simp] theorem State.countTx_txHead : (s.countTx).txHead = s.txHead := rfl
@[simp] theorem State.countTx_txTail : (s.countTx).txTail = s.txTail := rfl
@[simp] theorem State.countTx_rxCount : (s.countTx).rxCount = s.rxCount := rfl
@[simp] theorem State.countTx_txCount : (s.countTx).txCount = countUp s.cfg.cw s.txCount := rfl
@[simp] theorem State.countTx_rxie : (s.countTx).rxie = s.rxie := rfl
@[simp] theorem State.countTx_txie : (s.countTx).txie = s.txie := rfl
@[simp] theorem State.countTx_fg : (s.countTx).fg = s.fg := rfl
@[simp] theorem State.countTx_txOut : (s.countTx).txOut = s.txOut := rfl
@[simp] theorem State.countTx_rxIn : (s.countTx).rxIn = s.rxIn := rfl
@[simp] theorem State.countTx_rsp : (s.countTx).rsp = s.rsp := rfl
@[simp] theorem State.countTx_out : (s.countTx).out = s.out := rfl
@[simp] theorem State.countTx_inputs : (s.countTx).inputs = s.inputs := rfl
@[simp] theorem State.countTx_epoch : (s.countTx).epoch = s.epoch := rfl
@[simp] theorem State.countTx_cfg : (s.countTx).cfg = s.cfg := rfl

@[simp] theorem State.clearRecord_rxBuf : (s.clearRecord).rxBuf = s.rxBuf := rfl
@[simp] theorem State.clearRecord_txBuf : (s.clearRecord).txBuf = s.txBuf := rfl
@[simp] theorem State.clearRecord_rxHead : (s.clearRecord).rxHead = 0 := rfl
@[simp] theorem State.clearRecord_rxTail : (s.clearRecord).rxTail = 0 := rfl
@[simp] theorem State.clearRecord_txHead : (s.clearRecord).txHead = 0 := rfl
@[simp] theorem State.clearRecord_txTail : (s.clearRecord).txTail = 0 := rfl
@[simp] theorem State.clearRecord_rxCount : (s.clearRecord).rxCount = 0 := rfl
@[simp] theorem State.clearRecord_txCount : (s.clearRecord).txCount = 0 := rfl
@[simp] theorem State.clearRecord_rxie : (s.clearRecord).rxie = s.rxie := rfl
@[simp] theorem State.clearRecord_txie : (s.clearRecord).txie = false := rfl
@[simp] theorem State.clearRecord_fg : (s.clearRecord).fg = s.fg := rfl
@[simp] theorem State.clearRecord_txOut : (s.clearRecord).txOut = s.txOut := rfl
@[simp] theorem State.clearRecord_rxIn : (s.clearRecord).rxIn = s.rxIn := rfl
@[simp] theorem State.clearRecord_rsp : (s.clearRecord).rsp = s.rsp := rfl
@[simp] theorem State.clearRecord_out : (s.clearRecord).out = s.out := rfl
@[simp] theorem State.clearRecord_inputs : (s.clearRecord).inputs = s.inputs := rfl
@[simp] theorem State.clearRecord_epoch : (s.clearRecord).epoch = s.epoch := rfl
@[simp] theorem State.clearRecord_cfg : (s.clearRecord).cfg = s.cfg := rfl

@[simp] theorem State.hardReset_rxBuf : (s.hardReset).rxBuf = [] := rfl
@[simp] theorem State.hardReset_txBuf : (s.hardReset).txBuf = [] := rfl
@[simp] theorem State.hardReset_rxHead : (s.hardReset).rxHead = 0 := rfl
@[simp] theorem State.hardReset_rxTail : (s.hardReset).rxTail = 0 := rfl
@[simp] theorem State.hardReset_txHead : (s.hardReset).txHead = 0 := rfl
@[simp] theorem State.hardReset_txTail : (s.hardReset).txTail = 0 := rfl
@[simp] theorem State.hardReset_rxCount : (s.hardReset).rxCount = 0 := rfl
@[simp] theorem State.hardReset_txCount : (s.hardReset).txCount = 0 := rfl
@[simp] theorem State.hardReset_rxie : (s.hardReset).rxie = false := rfl
@[simp] theorem State.hardReset_txie : (s.hardReset).txie = false := rfl
@[simp] theorem State.hardReset_fg : (s.hardReset).fg = .idle := rfl
@[simp] theorem State.hardReset_txOut : (s.hardReset).txOut = [] := rfl
@[simp] theorem State.hardReset_rxIn : (s.hardReset).rxIn = [] := rfl
@[simp] theorem State.hardReset_rsp : (s.hardReset).rsp = [] := rfl
@[simp] theorem State.hardReset_out : (s.hardReset).out = Strobes.quiet := rfl
@[simp] theorem State.hardReset_inputs : (s.hardReset).inputs = s.inputs := rfl
@[simp] theorem State.hardReset_epoch : (s.hardReset).epoch = s.epoch + 1 := rfl
@[simp] theorem State.hardReset_cfg : (s.hardReset).cfg = s.cfg := rfl

@[simp] theorem State.leaveHandler_eq : s.leaveHandler = s := rfl

end Sys2Proof.Machine
end

