-- ==== Sys2Proof/Laws/Live.lean ====
section
/-! SUPPORT. Indices, levels and live regions (00_scope R16, 10_state R28, R44): what an advance of head or tail does
to the live region. -/

namespace Sys2Proof.Machine

theorem inc_lt {n : Nat} (i : Nat) (h : 0 < n) : inc n i < n := Nat.mod_lt _ h

/-- `inc_N(i)` is `i + 1` below the capacity and `0` at its end (R16). -/
theorem inc_eq {n i : Nat} (h : i < n) : inc n i = if i + 1 = n then 0 else i + 1 := by
  unfold inc
  split
  · next e => simp [e]
  · exact Nat.mod_eq_of_lt (by omega)

theorem inc_ne_self {n i : Nat} (hn : 2 ≤ n) (h : i < n) : inc n i ≠ i := by
  rw [inc_eq h]; split <;> omega

theorem countUp_lt (cw c : Nat) : countUp cw c < 2 ^ cw := Nat.mod_lt _ (Nat.two_pow_pos cw)

/-- The level without a modulo: head minus tail, plus the capacity when head is below tail. -/
theorem level_eq {n hd tl : Nat} (hh : hd < n) (ht : tl < n) :
    level n hd tl = if tl ≤ hd then hd - tl else hd + n - tl := by
  unfold level
  split
  · rw [show hd + n - tl = hd - tl + n by omega, Nat.add_mod_right, Nat.mod_eq_of_lt (by omega)]
  · exact Nat.mod_eq_of_lt (by omega)

theorem level_lt {n hd tl : Nat} (hh : hd < n) (ht : tl < n) : level n hd tl < n := by
  rw [level_eq hh ht]; split <;> omega

@[simp] theorem level_self {n i : Nat} (h : i < n) : level n i i = 0 := by simp [level_eq h h]

theorem level_eq_zero {n hd tl : Nat} (hh : hd < n) (ht : tl < n) : level n hd tl = 0 ↔ hd = tl := by
  rw [level_eq hh ht]; split <;> omega

theorem full_iff_level {n hd tl : Nat} (hh : hd < n) (ht : tl < n) : inc n hd = tl ↔ level n hd tl = n - 1 := by
  rw [inc_eq hh, level_eq hh ht]; split <;> split <;> omega

theorem level_push {n hd tl : Nat} (hh : hd < n) (ht : tl < n) (hf : inc n hd ≠ tl) :
    level n (inc n hd) tl = level n hd tl + 1 := by
  rw [level_eq (inc_lt _ (by omega)) ht, level_eq hh ht]
  rw [inc_eq hh] at *
  split_ifs at * <;> omega

theorem level_pop {n hd tl : Nat} (hh : hd < n) (ht : tl < n) (he : hd ≠ tl) :
    level n hd tl = level n hd (inc n tl) + 1 := by
  rw [level_eq hh (inc_lt _ (by omega)), level_eq hh ht, inc_eq ht]
  split_ifs at * <;> omega

@[simp] theorem liveSlots_self {n i : Nat} (h : i < n) : liveSlots n i i = [] := by simp [liveSlots, h]

@[simp] theorem liveSlots_length (n hd tl : Nat) : (liveSlots n hd tl).length = level n hd tl := by simp [liveSlots]

/-- The slot the producer writes next is just after the live region. -/
theorem tail_add_level {n hd tl : Nat} (hh : hd < n) (ht : tl < n) : (tl + level n hd tl) % n = hd := by
  rw [level_eq hh ht]
  split
  · rw [Nat.mod_eq_of_lt (by omega)]; omega
  · rw [show tl + (hd + n - tl) = hd + n by omega, Nat.add_mod_right, Nat.mod_eq_of_lt hh]

/-- Advancing head adds the old head's slot at the end of the live region. -/
theorem liveSlots_push {n hd tl : Nat} (hh : hd < n) (ht : tl < n) (hf : inc n hd ≠ tl) :
    liveSlots n (inc n hd) tl = liveSlots n hd tl ++ [hd] := by
  simp [liveSlots, level_push hh ht hf, List.range_succ, tail_add_level hh ht]

/-- Advancing tail removes the oldest slot of the live region. -/
theorem liveSlots_pop {n hd tl : Nat} (hh : hd < n) (ht : tl < n) (he : hd ≠ tl) :
    liveSlots n hd tl = tl :: liveSlots n hd (inc n tl) := by
  simp only [liveSlots, level_pop hh ht he, List.range_succ_eq_map, List.map_cons, List.map_map, Nat.add_zero,
    Nat.mod_eq_of_lt ht, List.cons.injEq, true_and]
  apply List.map_congr_left
  intro k _
  simp only [Function.comp_apply, inc, Nat.mod_add_mod]
  congr 1
  omega

/-- The slot the producer writes next is outside the live region (R44). -/
theorem head_not_live {n hd tl : Nat} (hh : hd < n) (ht : tl < n) : hd ∉ liveSlots n hd tl := by
  simp only [liveSlots, List.mem_map, List.mem_range, not_exists, not_and]
  intro k hk e
  rw [level_eq hh ht] at hk
  by_cases hw : tl + k < n
  · rw [Nat.mod_eq_of_lt hw] at e; split at hk <;> omega
  · rw [Nat.mod_eq_sub_mod (by omega), Nat.mod_eq_of_lt (by split at hk <;> omega)] at e
    split at hk <;> omega

/-- In a buffer that is not empty the consumer's slot is live. -/
theorem tail_live {n hd tl : Nat} (hh : hd < n) (ht : tl < n) (he : hd ≠ tl) : tl ∈ liveSlots n hd tl := by
  simp [liveSlots_pop hh ht he]

end Sys2Proof.Machine
end

