-- ==== Sys2Proof/Laws/Memory.lean ====
section
/-! SUPPORT. Buffers: what a store does to every slot, and that it keeps the canonical form. -/

namespace Sys2Proof.Machine

theorem Memory.mem_store {m : Memory} {i : Nat} {v : Byte} {c : Host.Cell} (h : c ∈ m.store i v) :
    c = (i, v) ∨ c ∈ m := by
  induction m with
  | nil => simpa [store] using h
  | cons d m ih =>
    obtain ⟨j, w⟩ := d
    simp only [store] at h
    split at h
    · simpa using h
    · split at h
      · rcases List.mem_cons.1 h with h | h <;> simp [h]
      · rcases List.mem_cons.1 h with h | h
        · simp [h]
        · rcases ih h with h | h <;> simp [h]

/-- A store keeps the slots strictly rising. -/
theorem Memory.store_wf {m : Memory} (i : Nat) (v : Byte) (h : m.wf) : (m.store i v).wf := by
  induction m with
  | nil => simp [store, wf]
  | cons d m ih =>
    obtain ⟨j, w⟩ := d
    obtain ⟨hj, hm⟩ : (∀ k ∈ m.map Prod.fst, j < k) ∧ Memory.wf m := by simpa [wf] using h
    simp only [store]
    split
    · next hij =>
      simp only [wf, List.map_cons, List.pairwise_cons]
      refine ⟨fun k hk => ?_, hj, hm⟩
      rcases List.mem_cons.1 hk with rfl | hk
      · exact hij
      · exact lt_trans hij (hj k hk)
    · split
      · next hij => subst hij; exact h
      · next h1 h2 =>
        simp only [wf, List.map_cons, List.pairwise_cons]
        refine ⟨fun k hk => ?_, ih hm⟩
        obtain ⟨c, hc, rfl⟩ := List.mem_map.1 hk
        rcases mem_store hc with rfl | hc
        · simp only; omega
        · exact hj _ (List.mem_map_of_mem hc)

theorem Memory.empty_wf : Memory.wf [] := by simp [Memory.wf]

@[simp] theorem Memory.slot?_nil (i : Nat) : Memory.slot? [] i = none := rfl

theorem Memory.slot?_store (m : Memory) (i j : Nat) (v : Byte) :
    (m.store i v).slot? j = if j = i then some v else m.slot? j := by
  induction m with
  | nil => simp [store, slot?]
  | cons d m ih =>
    obtain ⟨k, w⟩ := d
    simp only [store]
    split
    · simp [slot?]
    · split
      · next h => subst h; simp only [slot?]; split <;> rfl
      · next h1 h2 =>
        simp only [slot?, ih]
        split
        · next h3 => subst h3; rw [if_neg (Ne.symm h2)]
        · rfl

@[simp] theorem Memory.slot?_store_same (m : Memory) (i : Nat) (v : Byte) : (m.store i v).slot? i = some v := by
  simp [slot?_store]

theorem Memory.slot?_store_other {m : Memory} {i j : Nat} (v : Byte) (h : j ≠ i) :
    (m.store i v).slot? j = m.slot? j := by
  simp [slot?_store, h]

theorem Memory.slot?_eq_none {m : Memory} {i : Nat} (h : ∀ c ∈ m, c.1 ≠ i) : m.slot? i = none := by
  induction m with
  | nil => rfl
  | cons d m ih =>
    obtain ⟨j, w⟩ := d
    have hj : i ≠ j := fun e => h (j, w) (by simp) e.symm
    simp only [slot?, if_neg hj]
    exact ih fun c hc => h c (by simp [hc])

/-- A slot that was written reads as the byte written, whatever the free bytes are. -/
theorem Memory.byteAt_of_slot? {m : Memory} {i : Nat} {v : Byte} (id : BufferId) (e : Nat) (h : m.slot? i = some v) :
    m.byteAt id e i = v := by
  simp [byteAt, h]

theorem Memory.byteAt_store (m : Memory) (id : BufferId) (e i j : Nat) (v : Byte) :
    (m.store i v).byteAt id e j = if j = i then v else m.byteAt id e j := by
  simp only [byteAt, slot?_store]
  split <;> rfl

end Sys2Proof.Machine
end

