-- ==== Sys2Proof/Laws/Ops.lean ====
section
/-! SUPPORT. One lemma per shared operation that says what it can do. -/

namespace Sys2Proof.Machine

theorem afterAccess_next {α : Type} {r : Except Refusal α} {k : α → Host.Outcome State Fault Refusal} {t : State}
    (h : afterAccess r k = .next t) : ∃ v, r = .ok v ∧ k v = .next t := by
  cases r with
  | ok v => exact ⟨v, rfl, h⟩
  | error e => simp [afterAccess] at h

theorem readRx_ok {s : State} {i : Nat} (h : i < s.cfg.rcap) : s.readRx i = .ok (s.rxSlot i) := by
  simp [State.readRx, bufRead, h, State.rxSlot]

theorem readTx_ok {s : State} {i : Nat} (h : i < s.cfg.tcap) : s.readTx i = .ok (s.txSlot i) := by
  simp [State.readTx, bufRead, h, State.txSlot]

theorem writeRx_ok {s : State} {i : Nat} {v : Byte} (h : i < s.cfg.rcap) :
    s.writeRx i v = .ok { s with rxBuf := s.rxBuf.store i v } := by
  simp [State.writeRx, bufWrite, h, Except.map]

theorem writeTx_ok {s : State} {i : Nat} {v : Byte} (h : i < s.cfg.tcap) :
    s.writeTx i v = .ok { s with txBuf := s.txBuf.store i v } := by
  simp [State.writeTx, bufWrite, h, Except.map]

theorem readRx_out {s : State} {i : Nat} (h : ¬i < s.cfg.rcap) : s.readRx i = .error .indexOutOfRange := by
  simp [State.readRx, bufRead, h]

theorem readTx_out {s : State} {i : Nat} (h : ¬i < s.cfg.tcap) : s.readTx i = .error .indexOutOfRange := by
  simp [State.readTx, bufRead, h]

theorem writeRx_out {s : State} {i : Nat} {v : Byte} (h : ¬i < s.cfg.rcap) :
    s.writeRx i v = .error .indexOutOfRange := by
  simp [State.writeRx, bufWrite, h, Except.map]

theorem writeTx_out {s : State} {i : Nat} {v : Byte} (h : ¬i < s.cfg.tcap) :
    s.writeTx i v = .error .indexOutOfRange := by
  simp [State.writeTx, bufWrite, h, Except.map]

/-- A read that answers gave the byte of a slot in range. -/
theorem readRx_ok_iff {s : State} {i : Nat} {v : Byte} : s.readRx i = .ok v ↔ i < s.cfg.rcap ∧ v = s.rxSlot i := by
  by_cases h : i < s.cfg.rcap
  · simp [readRx_ok h, h, eq_comm]
  · simp [readRx_out h, h]

theorem readTx_ok_iff {s : State} {i : Nat} {v : Byte} : s.readTx i = .ok v ↔ i < s.cfg.tcap ∧ v = s.txSlot i := by
  by_cases h : i < s.cfg.tcap
  · simp [readTx_ok h, h, eq_comm]
  · simp [readTx_out h, h]

/-- A write that answers stored into a slot in range and changed nothing else. -/
theorem writeRx_ok_iff {s s' : State} {i : Nat} {v : Byte} :
    s.writeRx i v = .ok s' ↔ i < s.cfg.rcap ∧ s' = { s with rxBuf := s.rxBuf.store i v } := by
  by_cases h : i < s.cfg.rcap
  · simp [writeRx_ok h, h, eq_comm]
  · simp [writeRx_out h, h]

theorem writeTx_ok_iff {s s' : State} {i : Nat} {v : Byte} :
    s.writeTx i v = .ok s' ↔ i < s.cfg.tcap ∧ s' = { s with txBuf := s.txBuf.store i v } := by
  by_cases h : i < s.cfg.tcap
  · simp [writeTx_ok h, h, eq_comm]
  · simp [writeTx_out h, h]

theorem foregroundOp_idle {s : State} (i : Instr) (start : Flight)
    (micro : Flight → Host.Outcome State Fault Refusal) (h : s.fg = .idle) :
    foregroundOp i start micro s = .next (s.setFg (.busy start)) := by
  simp [foregroundOp, h]

theorem foregroundOp_own {s : State} {i : Instr} {f : Flight} (start : Flight)
    (micro : Flight → Host.Outcome State Fault Refusal) (h : s.fg = .busy f) (hi : f.op = i) :
    foregroundOp i start micro s = micro f := by
  simp [foregroundOp, h, hi]

theorem foregroundOp_other {s : State} {i : Instr} {f : Flight} (start : Flight)
    (micro : Flight → Host.Outcome State Fault Refusal) (h : s.fg = .busy f) (hi : f.op ≠ i) :
    foregroundOp i start micro s = .next s := by
  simp [foregroundOp, h, hi]

/-- What a foreground operation can do in one step: be accepted, perform its own micro-step, or wait. -/
theorem foregroundOp_next {s t : State} {i : Instr} {start : Flight}
    {micro : Flight → Host.Outcome State Fault Refusal} (h : foregroundOp i start micro s = .next t) :
    (s.fg = .idle ∧ t = s.setFg (.busy start)) ∨
      (∃ f, s.fg = .busy f ∧ f.op = i ∧ micro f = .next t) ∨
      (∃ f, s.fg = .busy f ∧ f.op ≠ i ∧ t = s) := by
  unfold foregroundOp at h
  split at h
  · next hf => exact .inl ⟨hf, by simpa using h.symm⟩
  · next f hf =>
    split at h
    · next hi => exact .inr (.inl ⟨f, hf, hi, h⟩)
    · next hi => exact .inr (.inr ⟨f, hf, hi, by simpa using h.symm⟩)

/-- An event operation is its body run after entry, and return adds nothing (60_exceptions R174, R175). -/
theorem eventOp_eq (i : Instr) (body : State → Host.Outcome State Fault Refusal) (s : State) :
    eventOp i body s = body (s.enterHandler i) := by
  unfold eventOp
  cases body (s.enterHandler i) <;> rfl

theorem txevtSend_empty {s : State} (h : s.txTail = s.txHead) :
    txevtSend s = .next { s with txie := false }.countTx := if_pos h

theorem txevtSend_queued {s : State} (h : s.txTail ≠ s.txHead) (hr : s.txTail < s.cfg.tcap) :
    txevtSend s =
      .next { s.hwWriteTx (s.txSlot s.txTail) with txTail := inc s.cfg.tcap s.txTail }.countTx := by
  simp [txevtSend, h, readTx_ok hr, afterAccess]

theorem rxevtStore_full {s : State} (b : Byte) (h : inc s.cfg.rcap s.rxHead = s.rxTail) :
    rxevtStore b s = .next s.countRx := if_pos h

theorem rxevtStore_room {s : State} (b : Byte) (h : inc s.cfg.rcap s.rxHead ≠ s.rxTail)
    (hr : s.rxHead < s.cfg.rcap) :
    rxevtStore b s =
      .next { s with rxBuf := s.rxBuf.store s.rxHead b, rxHead := inc s.cfg.rcap s.rxHead }.countRx := by
  simp [rxevtStore, h, writeRx_ok hr, afterAccess]

/-- What TXEVT can do: disarm over an empty buffer, or send the oldest byte. -/
theorem txevtSend_next {s t : State} (h : txevtSend s = .next t) :
    (s.txTail = s.txHead ∧ t = { s with txie := false }.countTx) ∨
      (s.txTail ≠ s.txHead ∧ s.txTail < s.cfg.tcap ∧
        t = { s.hwWriteTx (s.txSlot s.txTail) with txTail := inc s.cfg.tcap s.txTail }.countTx) := by
  unfold txevtSend at h
  split at h
  · next e => exact .inl ⟨e, by simpa using h.symm⟩
  · next e =>
    obtain ⟨v, hv, hk⟩ := afterAccess_next h
    obtain ⟨hr, rfl⟩ := readTx_ok_iff.1 hv
    exact .inr ⟨e, hr, by simpa using hk.symm⟩

/-- What RXEVT can do after its read: drop the byte of a full buffer, or store it. -/
theorem rxevtStore_next {s t : State} {b : Byte} (h : rxevtStore b s = .next t) :
    (inc s.cfg.rcap s.rxHead = s.rxTail ∧ t = s.countRx) ∨
      (inc s.cfg.rcap s.rxHead ≠ s.rxTail ∧ s.rxHead < s.cfg.rcap ∧
        t = { s with rxBuf := s.rxBuf.store s.rxHead b, rxHead := inc s.cfg.rcap s.rxHead }.countRx) := by
  unfold rxevtStore at h
  simp only at h
  split at h
  · next e => exact .inl ⟨e, by simpa using h.symm⟩
  · next e =>
    obtain ⟨s', hs, hk⟩ := afterAccess_next h
    obtain ⟨hr, rfl⟩ := writeRx_ok_iff.1 hs
    exact .inr ⟨e, hr, by simpa using hk.symm⟩

end Sys2Proof.Machine
end

