-- ==== Sys2Proof/Laws/PerInstr.lean ====
section
/-! SUPPORT. Family RowSelect: the word of an operation selects its row of the opcode table, `(w AND mask) = match`,
and no other row (30_encoding R82: the seven rows are disjoint). -/

namespace Sys2Proof.Laws.RowSelect

/-- `(w AND mask) = match` (R82). -/
def selects (w : OpWord) (i : Instr) : Bool := w &&& i.row.2 == i.row.1

/-- The word of `i` selects the row of an operation exactly when that is `i`'s own operation code. -/
def Statement (i : Instr) : Prop :=
  selects (encode i) i = true ∧ ∀ j : Instr, j.opcode ≠ i.opcode → selects (encode i) j = false

/-- With no bit of `dat` in it, a word selects only the row of its own code. -/
theorem of_fixed {i : Instr} (h : selects (encode i) i = true)
    (hj : ∀ r ∈ [Instr.txenq 0, .rxdeq, .rdtxc, .rdrxc, .setup, .rxevt 0, .txevt],
      r.opcode ≠ i.opcode → selects (encode i) r = false) : Statement i := by
  refine ⟨h, fun j hne => ?_⟩
  cases j with
  | txenq b => exact hj (.txenq 0) (by simp) hne
  | rxdeq => exact hj .rxdeq (by simp) hne
  | rdtxc => exact hj .rdtxc (by simp) hne
  | rdrxc => exact hj .rdrxc (by simp) hne
  | setup => exact hj .setup (by simp) hne
  | rxevt b => exact hj (.rxevt 0) (by simp) hne
  | txevt => exact hj .txevt (by simp) hne

theorem rxdeq : Statement .rxdeq := of_fixed (by decide) (by decide)

theorem rdtxc : Statement .rdtxc := of_fixed (by decide) (by decide)

theorem rdrxc : Statement .rdrxc := of_fixed (by decide) (by decide)

theorem setup : Statement .setup := of_fixed (by decide) (by decide)

theorem txevt : Statement .txevt := of_fixed (by decide) (by decide)

set_option maxRecDepth 10000 in
theorem txenq (b : Byte) : Statement (.txenq b) := by
  revert b
  have h : ∀ b : Byte, selects (encode (.txenq b)) (.txenq b) = true ∧
      ∀ r ∈ [Instr.txenq 0, .rxdeq, .rdtxc, .rdrxc, .setup, .rxevt 0, .txevt],
        r.opcode ≠ (Instr.txenq b).opcode → selects (encode (.txenq b)) r = false := by decide
  exact fun b => of_fixed (h b).1 (h b).2

set_option maxRecDepth 10000 in
theorem rxevt (b : Byte) : Statement (.rxevt b) := by
  revert b
  have h : ∀ b : Byte, selects (encode (.rxevt b)) (.rxevt b) = true ∧
      ∀ r ∈ [Instr.txenq 0, .rxdeq, .rdtxc, .rdrxc, .setup, .rxevt 0, .txevt],
        r.opcode ≠ (Instr.rxevt b).opcode → selects (encode (.rxevt b)) r = false := by decide
  exact fun b => of_fixed (h b).1 (h b).2

end Sys2Proof.Laws.RowSelect
end

