-- ==== Sys2Proof/Laws/Step.lean ====
section
/-! SUPPORT. The step: what it runs, and one inversion lemma for it. -/

namespace Sys2Proof.Machine

theorem step_eq_perform {s : State} (h : s.cfg.wf = true) : step s = perform (nextKind s s.input) s.beginStep := by
  simp [step, atomicStep, h]

theorem step_illFormed {s : State} (h : s.cfg.wf = false) : step s = .refused .configOutOfRange := by
  simp [step, atomicStep, h]

/-- A step that answers a next state ran its step kind on a well-formed configuration. -/
theorem step_next {s t : State} (h : step s = .next t) :
    s.cfg.wf = true ∧ perform (nextKind s s.input) s.beginStep = .next t := by
  cases hw : s.cfg.wf with
  | true => exact ⟨rfl, by rwa [step_eq_perform hw] at h⟩
  | false => simp [step_illFormed hw] at h

/-- When each step kind occurs (20_memory R62). -/
theorem nextKind_fgStep {s : State} {x : Inputs} (h : nextKind s x = .fgStep) :
    x.rst = false ∧ x.turn = .foreground ∧ ∃ f, s.fg = .busy f := by
  unfold nextKind at h
  (repeat' split at h) <;> simp_all [irqRx, irqTx]

theorem nextKind_fgAccept {s : State} {x : Inputs} {w : OpWord} (h : nextKind s x = .fgAccept w) :
    x.rst = false ∧ x.turn = .foreground ∧ s.fg = .idle ∧ x.fgCmd = some w := by
  unfold nextKind at h
  (repeat' split at h) <;> simp_all [irqRx, irqTx]

theorem nextKind_evRx {s : State} {x : Inputs} {b : Byte} (h : nextKind s x = .evRx b) :
    x.rst = false ∧ x.turn = .rxEvent ∧ s.rxie = true ∧ x.rxAvail = some b := by
  unfold nextKind at h
  (repeat' split at h) <;> simp_all [irqRx, irqTx]

theorem nextKind_evTx {s : State} {x : Inputs} (h : nextKind s x = .evTx) :
    x.rst = false ∧ x.turn = .txEvent ∧ s.txie = true ∧ x.txReady = true := by
  unfold nextKind at h
  (repeat' split at h) <;> simp_all [irqRx, irqTx]

/-- What a step can do, by its kind (20_memory R62). -/
theorem step_cases {s t : State} (h : step s = .next t) :
    (∃ w, nextKind s s.input = .fgAccept w ∧ s.fg = .idle ∧ acceptWord w s.beginStep = .next t) ∨
      (∃ f, nextKind s s.input = .fgStep ∧ s.fg = .busy f ∧ exec f.op s.beginStep = .next t) ∨
      (∃ b, nextKind s s.input = .evRx b ∧ s.rxie = true ∧ execRxevt b s.beginStep = .next t) ∨
      (nextKind s s.input = .evTx ∧ s.txie = true ∧ execTxevt s.beginStep = .next t) ∨
      (nextKind s s.input = .reset ∧ t = s.beginStep.hardReset) ∨
      (nextKind s s.input = .hold ∧ t = s.beginStep) := by
  obtain ⟨-, hp⟩ := step_next h
  cases hk : nextKind s s.input with
  | fgAccept w =>
    rw [hk] at hp
    exact .inl ⟨w, rfl, (nextKind_fgAccept hk).2.2.1, hp⟩
  | fgStep =>
    obtain ⟨-, -, f, hf⟩ := nextKind_fgStep hk
    rw [hk] at hp
    refine .inr (.inl ⟨f, rfl, hf, ?_⟩)
    simpa [perform, foregroundStep, hf] using hp
  | evRx b =>
    rw [hk] at hp
    exact .inr (.inr (.inl ⟨b, rfl, (nextKind_evRx hk).2.2.1, hp⟩))
  | evTx =>
    rw [hk] at hp
    exact .inr (.inr (.inr (.inl ⟨rfl, (nextKind_evTx hk).2.2.1, hp⟩)))
  | reset =>
    rw [hk] at hp
    exact .inr (.inr (.inr (.inr (.inl ⟨rfl, by simpa [perform] using hp.symm⟩))))
  | hold =>
    rw [hk] at hp
    exact .inr (.inr (.inr (.inr (.inr ⟨rfl, by simpa [perform] using hp.symm⟩))))

@[simp] theorem run_zero (s : State) : core.run 0 s = .next s := rfl

/-- A run of one step more, when the first step answers a next state. -/
theorem run_succ {s t : State} (k : Nat) (h : step s = .next t) : core.run (k + 1) s = core.run k t := by
  have h' : core.step s = .next t := h
  simp only [Host.Core.run, h']

end Sys2Proof.Machine
end

