-- ==== Sys2Proof/Tests/Slice0.lean ====
section
/-! SUPPORT. Tests with expected results from the spec's worked vectors (95_test_vectors, named by their ids), and for
every statement with hypotheses a witness that meets them. -/

namespace Sys2Proof.Tests

open Sys2Proof Sys2Proof.Machine

/-! ### Helpers -/

/-- The vectors' small configuration: `RCAP = TCAP = 4`, `CW = 4`. -/
def cfg4 : Config := { Config.default with rcap := 4, tcap := 4, cw := 4 }

/-- "After SETUP": `<0 0 / 0 0 / 0 0 / 1 0>`. -/
def ready : State := { State.reset with cfg := cfg4, rxie := true }

/-- Three bytes queued for transmission: full (IN1's start). -/
def txFull3 : State :=
  { ready with txBuf := [(0, 0x41#8), (1, 0x42#8), (2, 0x43#8)], txHead := 3, txie := true }

/-- Three bytes received: full (IN8's start). -/
def rxFull3 : State := { ready with rxBuf := [(0, 0x31#8), (1, 0x32#8), (2, 0x33#8)], rxHead := 3, rxCount := 3 }

/-- `s` with the sequencer busy. -/
def busy (f : Flight) (s : State) : State := { s with fg := .busy f }

/-- `s` with one input offered. -/
def offering (x : Inputs) (s : State) : State := { s with inputs := [x] }

/-- The outcome is a next state and it has the property. -/
def nextHas (o : Host.Outcome State Fault Refusal) (p : State → Bool) : Bool :=
  match o with
  | .next t => p t
  | .fault _ => false
  | .refused _ => false

/-- The decoder's answer as an option. -/
def dec (c : Context) (w : OpWord) : Option Instr := (decode c w).toOption

/-! ### Well-formedness -/

theorem test_default_configuration_is_wellFormed : Config.default.wf = true := by decide
theorem test_rcap_one_is_refused : ({ Config.default with rcap := 1 } : Config).wf = false := by decide
theorem test_tcap_one_is_refused : ({ Config.default with tcap := 1 } : Config).wf = false := by decide
theorem test_cw_zero_is_refused : ({ Config.default with cw := 0 } : Config).wf = false := by decide
theorem test_divisor_too_wide_is_refused :
    ({ Config.default with fClk := 16000000, baud := 9600, divw := 10 } : Config).wf = false := by decide
theorem test_divisor_that_fits_is_accepted :
    ({ Config.default with fClk := 16000000, baud := 9600, divw := 11 } : Config).wf = true := by decide
theorem test_baud_zero_is_refused : ({ Config.default with baud := 0 } : Config).wf = false := by decide
theorem test_rxevt_is_illFormed_on_foreground : (Instr.rxevt 0x31#8).wellFormedOn .foreground = false := by decide
theorem test_txevt_is_illFormed_on_foreground : Instr.txevt.wellFormedOn .foreground = false := by decide
theorem test_setup_is_illFormed_in_event_context : Instr.setup.wellFormedOn .event = false := by decide
theorem test_txenq_is_wellFormed_on_foreground : (Instr.txenq 0xFF#8).wellFormedOn .foreground = true := by decide

/-! ### Decoding: words written from 30_encoding R82 and the table of 95_test_vectors 2.6 -/

theorem test_decode_txenq :
    dec .foreground 0b0001_01000001#12 = some (.txenq 0x41#8) ∧ dec .foreground 0x100#12 = some (.txenq 0x00#8) ∧
      dec .foreground 0x1FF#12 = some (.txenq 0xFF#8) := by decide
theorem test_decode_rxdeq : dec .foreground 0b0010_00000000#12 = some .rxdeq := by decide
theorem test_decode_rdtxc : dec .foreground 0b0011_00000000#12 = some .rdtxc := by decide
theorem test_decode_rdrxc : dec .foreground 0b0100_00000000#12 = some .rdrxc := by decide
theorem test_decode_setup : dec .foreground 0b0101_00000000#12 = some .setup := by decide
theorem test_decode_rxevt :
    dec .event 0b1000_00110001#12 = some (.rxevt 0x31#8) ∧ dec .event 0x800#12 = some (.rxevt 0x00#8) ∧
      dec .event 0x8FF#12 = some (.rxevt 0xFF#8) := by decide
theorem test_decode_txevt : dec .event 0b1001_00000000#12 = some .txevt := by decide

/-- IL1 to IL15. -/
def reservedWords : List OpWord :=
  [0x000#12, 0x0FF#12, 0x201#12, 0x2FF#12, 0x301#12, 0x480#12, 0x501#12, 0x600#12, 0x7AB#12, 0x800#12, 0x831#12,
    0x900#12, 0x901#12, 0xA00#12, 0xFFF#12]

theorem test_reserved_words_decode_to_nothing :
    (reservedWords.all fun w => (dec .foreground w).isNone) = true := by decide

/-- IL1 to IL15: ILLEGAL `0x3_0000_0000` in the accepting step, `fg` stays Idle, nothing else changes. -/
theorem test_reserved_words_answer_illegal :
    (reservedWords.all fun w =>
      nextHas (step (offering (Script.present w) State.reset)) fun t =>
        t == { State.reset with
          rsp := [(w, ⟨.illegal, 0⟩)], out := { Strobes.quiet with fgRsp := some ⟨.illegal, 0⟩ } }) = true := by
  decide

theorem test_reserved_event_words :
    dec .event 0x901#12 = none ∧ dec .event 0xA00#12 = none ∧ dec .event 0x141#12 = none := by decide

/-- The opcode table's numbering, two bytes a word. -/
theorem test_decodeTableWord :
    decodeTableWord 16 0x141 = some (.txenq 0x41#8) ∧ decodeTableWord 16 0x900 = some .txevt ∧
      decodeTableWord 12 0x200 = some .rxdeq ∧ decodeTableWord 16 0x1200 = none ∧ decodeTableWord 16 0x600 = none := by
  decide

/-! ### Each operation is the first to run after reset where its word is placed -/

theorem test_placed_foreground_words_are_accepted :
    (nextHas (step (State.reset.withFetchWord 16 0x141)) fun t => t.fg == .busy (.txenq (.e1 0x41#8))) = true ∧
      (nextHas (step (State.reset.withFetchWord 16 0x200)) fun t => t.fg == .busy (.rxdeq .q1)) = true ∧
      (nextHas (step (State.reset.withFetchWord 16 0x300)) fun t => t.fg == .busy .rdtxc) = true ∧
      (nextHas (step (State.reset.withFetchWord 16 0x400)) fun t => t.fg == .busy .rdrxc) = true ∧
      (nextHas (step (State.reset.withFetchWord 16 0x500)) fun t => t.fg == .busy .setup) = true := by decide

theorem test_placed_event_words_run :
    (nextHas (step (State.reset.withFetchWord 16 0x831)) fun t => t.rxIn == [0x31#8] && t.rxHead == 1) = true ∧
      (nextHas (step (State.reset.withFetchWord 16 0x900)) fun t => t.txCount == 1 && !t.txie) = true := by decide

/-! ### One step of each operation -/

/-- TE5: `TCAP = 5`, `tx_head = 4`: `next = inc_5(4) = 0`. -/
theorem test_txenq_index_wraps_at_five :
    (nextHas (exec (.txenq 0x00#8)
      (busy (.txenq (.e1 0x00#8)) { ready with cfg := { cfg4 with tcap := 5 }, txHead := 4, txTail := 2 })) fun t =>
        t.fg == .busy (.txenq (.e2 0x00#8 4 0))) = true := by decide

/-- TE4: head below tail and full: FULL at E2, nothing changes. -/
theorem test_txenq_full_below_tail :
    (nextHas (exec (.txenq 0x7F#8)
      (busy (.txenq (.e2 0x7F#8 0 1)) { ready with txHead := 0, txTail := 1, txie := true })) fun t =>
        t.rsp == [(0x17F#12, ⟨.full, 0⟩)] && t.fg == .idle && t.txHead == 0 && t.txBuf == [] && t.txie) = true := by
  decide

/-- RD8: `RCAP = 5`, `rx_tail = 4`: the byte read is answered and `rx_tail = inc_5(4) = 0`. -/
theorem test_rxdeq_index_wraps_at_five :
    (nextHas (exec .rxdeq
      (busy (.rxdeq (.q4 4 0 0x5A#8)) { ready with cfg := { cfg4 with rcap := 5 }, rxTail := 4 })) fun t =>
        t.rxTail == 0 && t.rxEmpty && t.rsp == [(0x200#12, ⟨.ok, 0x5A⟩)]) = true := by decide

/-- RD2: EMPTY at Q2 with data 0. -/
theorem test_rxdeq_empty :
    (nextHas (exec .rxdeq (busy (.rxdeq (.q2 3)) { ready with rxHead := 3, rxTail := 3 })) fun t =>
      t.rsp == [(0x200#12, ⟨.empty, 0⟩)] && t.rxTail == 3 && t.fg == .idle) = true := by decide

/-- DC4: the whole counter is answered. -/
theorem test_rdtxc_all_ones :
    (nextHas (exec .rdtxc (busy .rdtxc { State.reset with txCount := 0xFFFFFFFF })) fun t =>
      t.rsp == [(0x300#12, ⟨.ok, 0xFFFFFFFF⟩)] && t.txCount == 0xFFFFFFFF) = true := by decide

/-- DC6: RDRXC answers `rx_count`, not `tx_count`. -/
theorem test_rdrxc_answers_receive_counter :
    (nextHas (exec .rdrxc (busy .rdrxc { ready with rxCount := 2, txCount := 3 })) fun t =>
      t.rsp == [(0x400#12, ⟨.ok, 2⟩)] && t.rxCount == 2) = true := by decide

/-- DC5: `CW = 4`, so `DW = 8` and a response has 10 bits. -/
theorem test_response_words_with_narrow_counter :
    (responseWord cfg4 ⟨.ok, 15⟩).toNat = 0x00F ∧ (responseWord cfg4 ⟨.full, 0⟩).toNat = 0x100 ∧
      (responseWord cfg4 ⟨.empty, 0⟩).toNat = 0x200 ∧ (responseWord cfg4 ⟨.illegal, 0⟩).toNat = 0x300 ∧
      (responseWord cfg4 ⟨.ok, 0xFF⟩).toNat = 0x0FF := by decide

/-- SU2: `<3 1 / 2 0 / 9 5 / 1 1>` becomes `<0 0 / 0 0 / 0 0 / 1 0>`, the bytes stay in their slots. -/
theorem test_setup_zeroes_record_keeps_slots :
    (nextHas (exec .setup (busy .setup
      { ready with
        rxHead := 3, rxTail := 1, txHead := 2, txTail := 0, rxCount := 9, txCount := 5, txie := true
        rxBuf := [(1, 0x32#8), (2, 0x33#8)], txBuf := [(0, 0x41#8), (1, 0x42#8)] })) fun t =>
      t == { ready with
        rxBuf := [(1, 0x32#8), (2, 0x33#8)]
        txBuf := [(0, 0x41#8), (1, 0x42#8)]
        rsp := [(0x500#12, ⟨.ok, 0⟩)]
        out := { Strobes.quiet with cfgStrobe := true, fgRsp := some ⟨.ok, 0⟩ } }) = true := by decide

/-- RE3: the head wraps and the buffer is then full. -/
theorem test_rxevt_wraps :
    (nextHas (exec (.rxevt 0x00#8) { rxFull3 with rxTail := 1, rxCount := 7 }) fun t =>
      t.rxHead == 0 && t.rxCount == 8 && t.rxFull && t.rxBuf.slot? 3 == some 0x00#8) = true := by decide

/-- RE7: `CW = 4`, the count wraps on a dropped byte too. -/
theorem test_rxevt_drop_wraps_count :
    (nextHas (exec (.rxevt 0x01#8) { rxFull3 with rxCount := 15 }) fun t =>
      t.rxCount == 0 && t.rxHead == 3 && t.rxBuf == rxFull3.rxBuf && t.rxIn == [0x01#8] && t.out.rxRd) = true := by
  decide

/-- TV4: the tail wraps, the byte is sent, `txie` stays. -/
theorem test_txevt_wraps :
    (nextHas (exec .txevt { ready with txBuf := [(3, 0x45#8)], txHead := 1, txTail := 3, txie := true }) fun t =>
      t.txTail == 0 && t.txOut == [0x45#8] && t.txie && t.out.txWr == some 0x45#8) = true := by decide

/-- TV6: an idle TXEVT wraps the count and disarms. -/
theorem test_txevt_idle_wraps_count :
    (nextHas (exec .txevt { State.reset with txCount := 0xFFFFFFFF, txie := true }) fun t =>
      t.txCount == 0 && !t.txie && t.txOut == [] && t.out.txWr == none) = true := by decide

/-! ### Steps that are not an operation's -/

/-- IN1's start: `tx_full` (10_state R27), `irq_tx` while the hardware is ready (R170), `fg_ready` (R90). -/
theorem test_pins_of_full_transmit_buffer :
    let p := txFull3.pins { Inputs.quiet with txReady := true }
    p.txFull = true ∧ p.txEmpty = false ∧ p.rxEmpty = true ∧ p.irqTx = true ∧ p.irqRx = false ∧ p.fgReady = true := by
  decide

/-- RE8: `rxie = 0`, the byte stays in the hardware layer. TV5: `txie = 0`, no TXEVT. -/
theorem test_disarmed_sources_hold :
    (nextHas (step (offering (Script.rxevt 0x31#8) State.reset)) fun t => t == State.reset) = true ∧
      (nextHas (step (offering Script.txevt ready)) fun t => t == ready) = true := by decide

/-- IN12: a word presented while an operation is in flight is not accepted; the operation goes on. -/
theorem test_busy_port_does_not_accept :
    (nextHas (step (offering (Script.present 0x500#12) (busy (.rxdeq .q1) ready))) fun t =>
      t == busy (.rxdeq (.q2 0)) ready) = true := by decide

/-- IN11: reset in the middle of a TXENQ: no response, the byte is not queued. -/
theorem test_reset_abandons_operation :
    (nextHas (step (offering Script.rst
      (busy (.txenq (.e4 0x41#8 0 1 0)) { ready with txBuf := [(0, 0x41#8)] }))) fun t =>
        t.fg == .idle && t.rsp == [] && t.txHead == 0 && !t.rxie && t.txBuf == [] && t.out.fgRsp == none) = true := by
  decide

/-- IN5: between E4 and E5 the buffer is not empty with `txie = 0`; the transmit source cannot run. -/
theorem test_published_byte_waits_for_arming :
    (nextHas (step (offering Script.txevt
      (busy (.txenq (.e5 0x42#8 1 2 1)) { ready with txBuf := [(1, 0x42#8)], txHead := 2, txTail := 1 }))) fun t =>
        t.txOut == [] && t.txTail == 1 && !t.txEmpty) = true := by decide

/-! ### Witnesses: concrete states and operands that meet every statement's hypotheses -/

/-- A TXENQ of 0x41 in flight in `ready`, at each of its points: the slot is written from E4 on, published at E5. -/
def atE1 : State := busy (.txenq (.e1 0x41#8)) ready
def atE2 : State := busy (.txenq (.e2 0x41#8 0 1)) ready
def atE3 : State := busy (.txenq (.e3 0x41#8 0 1 0)) ready
def atE4 : State := busy (.txenq (.e4 0x41#8 0 1 0)) { ready with txBuf := [(0, 0x41#8)] }
def atE5 : State := busy (.txenq (.e5 0x41#8 0 1 0)) { ready with txBuf := [(0, 0x41#8)], txHead := 1 }

/-- A TXENQ at E2 that finds the buffer full. -/
def atE2Full : State := busy (.txenq (.e2 0x44#8 3 0)) txFull3

/-- An RXDEQ in flight in `rxFull3`, at each of its points. -/
def atQ1 : State := busy (.rxdeq .q1) rxFull3
def atQ2 : State := busy (.rxdeq (.q2 0)) rxFull3
def atQ3 : State := busy (.rxdeq (.q3 0 3)) rxFull3
def atQ4 : State := busy (.rxdeq (.q4 0 3 0x31#8)) rxFull3

/-- An RXDEQ at Q2 that finds the buffer empty. -/
def atQ2Empty : State := busy (.rxdeq (.q2 0)) ready

/-- The smallest buffers: one usable slot each. -/
def smallest : State := { ready with cfg := { cfg4 with rcap := 2, tcap := 2 }, txie := true }

theorem witness_DecodeFollowsTableAndInvertsEncode :
    ((∀ b : Byte, 0x6FF#12 ≠ 0x100#12 + b.setWidth 12) ∧ 0x6FF#12 ∉ [0x200#12, 0x300#12, 0x400#12, 0x500#12]) ∧
      ((∀ b : Byte, 0xA00#12 ≠ 0x800#12 + b.setWidth 12) ∧ 0xA00#12 ≠ 0x900#12) ∧
      decode .event 0x8FF#12 = .ok (.rxevt 0xFF#8) := by
  refine ⟨⟨fun b h => ?_, by decide⟩, ⟨fun b h => ?_, by decide⟩, rfl⟩ <;> bv_omega

theorem witness_ReservedWordAnsweredIllegal :
    let offered := fun w : OpWord => offering (Script.present w) ready
    (∀ w, (offered w).cfg.wf = true ∧ (offered w).inputs = Script.present w :: [] ∧ (Script.present w).rst = false ∧
        (Script.present w).turn = .foreground ∧ (Script.present w).fgCmd = some w ∧ (offered w).fg = .idle) ∧
      (0x7FF#12).toNat / 256 ∈ [0x0, 0x6, 0x7] ∧
      ((0x201#12).toNat / 256 ∈ [0x2, 0x3, 0x4, 0x5] ∧ (0x201#12).toNat % 256 ≠ 0) ∧
      (0x800#12).getLsbD 11 = true ∧
      ∃ t, step (offering (Script.rxevt 0x31#8) ready) = .next t ∧ t.out.evCode = some 0x831#12 :=
  ⟨fun _ => ⟨show cfg4.wf = true by decide, rfl, rfl, rfl, rfl, rfl⟩, by decide, by decide, by decide, _, rfl, rfl⟩

theorem witness_ResponseWordIsStatusThenData : 0xFFFFFFFF < 2 ^ max Config.default.cw 8 := by decide

theorem witness_IndexWidthsHoldEveryIndex :
    2 ≤ smallest.cfg.rcap ∧ 2 ≤ smallest.cfg.tcap ∧ 1 < smallest.cfg.rcap ∧ 1 < smallest.cfg.tcap := by decide

theorem witness_HardwareReset :
    (offering Script.rst atE4).cfg.wf = true ∧ (offering Script.rst atE4).input.rst = true := by decide

theorem witness_StepKeepsInvariant :
    atE4.Inv ∧ (∃ t, step atE4 = .next t) ∧ atQ4.Inv ∧ (∃ t, step atQ4 = .next t) :=
  ⟨by decide, ⟨_, rfl⟩, by decide, ⟨_, rfl⟩⟩

theorem witness_NoStepStopsUnderInvariant : atE3.Inv ∧ atQ3.Inv ∧ (offering Script.txevt txFull3).Inv := by decide

theorem witness_StepKeepsBuffersCanonical :
    atE3.rxBuf.wf ∧ atE3.txBuf.wf ∧ ∃ t, step atE3 = .next t ∧ t.txBuf = [(0, 0x41#8)] :=
  ⟨by decide, by decide, _, rfl, rfl⟩

theorem witness_IllFormedConfigurationNeverRuns :
    ({ ready with cfg := { cfg4 with tcap := 1 } } : State).cfg.wf = false := by decide

theorem witness_StepKeepsConfiguration : ∃ t, step atE1 = .next t := ⟨_, rfl⟩

theorem witness_StepRunsDecodedOperation :
    let s₁ := offering (Script.present 0x141#12) ready
    let s₃ := offering (Script.rxevt 0x31#8) ready
    let s₄ := offering Script.txevt txFull3
    (s₁.cfg.wf = true ∧ s₁.input.rst = false ∧ s₁.input.turn = .foreground ∧ s₁.fg = .idle ∧
        s₁.input.fgCmd = some 0x141#12 ∧ decode .foreground 0x141#12 = .ok (.txenq 0x41#8)) ∧
      (atE2.cfg.wf = true ∧ atE2.input.rst = false ∧ atE2.input.turn = .foreground ∧
        atE2.fg = .busy (.txenq (.e2 0x41#8 0 1))) ∧
      (s₃.cfg.wf = true ∧ s₃.input.rst = false ∧ s₃.input.turn = .rxEvent ∧ s₃.rxie = true ∧
        s₃.input.rxAvail = some 0x31#8) ∧
      (s₄.cfg.wf = true ∧ s₄.input.rst = false ∧ s₄.input.turn = .txEvent ∧ s₄.txie = true ∧ s₄.input.txReady = true) ∧
      (ready.input.turn = .foreground ∧ ready.fg = .idle ∧ ready.input.fgCmd = none) :=
  ⟨⟨by decide, rfl, rfl, rfl, rfl, rfl⟩, by decide, by decide, by decide, by decide⟩

theorem witness_PlacedWordRunsNext :
    atE4.cfg.wf = true ∧ (Instr.txenq 0xFF#8).context = .foreground ∧ Instr.setup.context = .foreground := by decide

theorem witness_EventsAreGatedByEnables :
    let on := offering (Script.rxevt 0x31#8) ready
    let off := offering (Script.rxevt 0x31#8) State.reset
    let on' := offering Script.txevt txFull3
    let off' := offering Script.txevt ready
    (on.cfg.wf = true ∧ on.input.rst = false ∧ on.input.turn = .rxEvent ∧ on.rxie = true ∧
        on.input.rxAvail = some 0x31#8) ∧
      (off.cfg.wf = true ∧ off.input.rst = false ∧ off.input.turn = .rxEvent ∧ off.rxie = false) ∧
      (on'.cfg.wf = true ∧ on'.input.rst = false ∧ on'.input.turn = .txEvent ∧ on'.txie = true ∧
        on'.input.txReady = true) ∧
      (off'.cfg.wf = true ∧ off'.input.rst = false ∧ off'.input.turn = .txEvent ∧ off'.txie = false) := by decide

theorem witness_BusyPortIgnoresTheWordPresented : atQ3.fg = .busy (.rxdeq (.q3 0 3)) := rfl

theorem witness_OtherOperationWaitsWhileBusy :
    atQ3.fg = .busy (.rxdeq (.q3 0 3)) ∧ Instr.setup.context = .foreground ∧ (Flight.rxdeq (.q3 0 3)).op ≠ .setup := by
  decide

theorem witness_BufferWriteThenRead :
    3 < cfg4.rcap ∧ (2 : Nat) ≠ 3 ∧ (∀ c ∈ rxFull3.rxBuf, c.1 ≠ 3) ∧ cfg4.rcap ≤ 4 := by decide

theorem witness_OutOfRangeAccessIsRefused :
    let e3 := busy (.txenq (.e3 0x41#8 4 0 0)) ready
    let q3 := busy (.rxdeq (.q3 4 0)) ready
    let rx := { ready with rxHead := 4 }
    let tx := { ready with txTail := 4 }
    (e3.fg = .busy (.txenq (.e3 0x41#8 4 0 0)) ∧ e3.cfg.tcap ≤ 4) ∧
      (q3.fg = .busy (.rxdeq (.q3 4 0)) ∧ q3.cfg.rcap ≤ 4) ∧
      ((rx.rxHead + 1) % rx.cfg.rcap ≠ rx.rxTail ∧ rx.cfg.rcap ≤ rx.rxHead) ∧
      (tx.txTail ≠ tx.txHead ∧ tx.cfg.tcap ≤ tx.txTail) := by decide

theorem witness_FlagsAgreeWithLevels :
    (txFull3.cfg.wf = true ∧ txFull3.indicesOk) ∧ (ready.cfg.wf = true ∧ ready.indicesOk) := by decide

theorem witness_TxenqMicroSteps :
    ready.fg = .idle ∧ atE1.fg = .busy (.txenq (.e1 0x41#8)) ∧ atE2.fg = .busy (.txenq (.e2 0x41#8 0 1)) ∧
      (atE3.fg = .busy (.txenq (.e3 0x41#8 0 1 0)) ∧ 0 < atE3.cfg.tcap) ∧
      atE5.fg = .busy (.txenq (.e5 0x41#8 0 1 0)) ∧
      ∃ u, exec (.txenq 0x41#8) { atE4 with cfg := { cfg4 with tcap := 2 } } = .next u ∧
        atE4.fg = .busy (.txenq (.e4 0x41#8 0 1 0)) ∧ 1 ≠ atE4.txTail ∧ ({ cfg4 with tcap := 2 } : Config).wf = true ∧
        1 < 2 ∧ atE4.txTail < 2 ∧ u.txLevel = 2 - 1 :=
  ⟨rfl, rfl, rfl, by decide, rfl, _, rfl, rfl, by decide, by decide, by decide, by decide, by decide⟩

theorem witness_TxenqStoresPublishesAndArms :
    ready.fg = .idle ∧ ready.txHead < ready.cfg.tcap ∧ (ready.txHead + 1) % ready.cfg.tcap ≠ ready.txTail := by decide

theorem witness_TxenqOnFullChangesNothing :
    (txFull3.fg = .idle ∧ (txFull3.txHead + 1) % txFull3.cfg.tcap = txFull3.txTail) ∧
      atE2Full.flightOk = true ∧ ∃ t, step atE2Full = .next t ∧ t.out.fgRsp = some ⟨.full, 0⟩ :=
  ⟨by decide, by decide, _, rfl, rfl⟩

theorem witness_TxenqPublishesAfterStoring :
    (atE3.Inv ∧ (∃ t, exec (.txenq 0x41#8) atE3 = .next t) ∧ atE3.fg = .busy (.txenq (.e3 0x41#8 0 1 0))) ∧
      (atE4.Inv ∧ (∃ t, exec (.txenq 0x41#8) atE4 = .next t) ∧ atE4.fg = .busy (.txenq (.e4 0x41#8 0 1 0))) :=
  ⟨⟨by decide, ⟨_, rfl⟩, rfl⟩, by decide, ⟨_, rfl⟩, rfl⟩

theorem witness_FullAnswerFindsSourceArmed :
    atE2Full.Inv ∧ atE2Full.fg = .busy (.txenq (.e2 0x44#8 3 0)) ∧ 0 = atE2Full.txTail := by decide

theorem witness_TxenqFrame : (∃ t, exec (.txenq 0x41#8) atE3 = .next t) ∧ txenqStores 0x41#8 atE3 = some 0 :=
  ⟨⟨_, rfl⟩, rfl⟩

theorem witness_RxdeqMicroSteps :
    rxFull3.fg = .idle ∧ atQ1.fg = .busy (.rxdeq .q1) ∧ atQ2.fg = .busy (.rxdeq (.q2 0)) ∧
      (atQ3.fg = .busy (.rxdeq (.q3 0 3)) ∧ 0 < atQ3.cfg.rcap) ∧
      (∃ u, exec .rxdeq { atQ4 with rxHead := 1 } = .next u ∧ atQ4.fg = .busy (.rxdeq (.q4 0 3 0x31#8)) ∧
        (0 + 1) % atQ4.cfg.rcap = 1) ∧
      ∃ u, exec .rxdeq atQ4 = .next u ∧ atQ4.cfg.wf = true ∧ atQ4.rxHead < atQ4.cfg.rcap ∧ 0 < atQ4.cfg.rcap ∧
        atQ4.rxHead ≠ 0 :=
  ⟨rfl, rfl, rfl, by decide, ⟨_, rfl, rfl, by decide⟩, _, rfl, by decide⟩

theorem witness_RxdeqReturnsOldestByte :
    rxFull3.cfg.wf = true ∧ rxFull3.indicesOk ∧ rxFull3.fg = .idle ∧ rxFull3.rxHead ≠ rxFull3.rxTail := by decide

theorem witness_RxdeqOnEmptyChangesNothing : ready.fg = .idle ∧ ready.rxHead = ready.rxTail := by decide

/-- RE3 without its counts: the store that fills the buffer meets the flags clause too. -/
theorem witness_RxevtStoresByte :
    let s := { rxFull3 with rxTail := 1 }
    (s.rxHead < s.cfg.rcap ∧ (s.rxHead + 1) % s.cfg.rcap ≠ s.rxTail) ∧ s.cfg.wf = true ∧ s.rxTail < s.cfg.rcap ∧
      ∃ t, exec (.rxevt 0x00#8) s = .next t ∧ t.rxLevel = s.cfg.rcap - 1 :=
  ⟨by decide, by decide, by decide, _, rfl, by decide⟩

theorem witness_RxevtDropsOnFull : (rxFull3.rxHead + 1) % rxFull3.cfg.rcap = rxFull3.rxTail := by decide

theorem witness_RxevtAlwaysCounts :
    (∃ t, exec (.rxevt 0x01#8) { rxFull3 with rxCount := 15 } = .next t) ∧
      ({ rxFull3 with rxCount := 15 } : State).rxCount = 2 ^ rxFull3.cfg.cw - 1 := ⟨⟨_, rfl⟩, by decide⟩

/-- TV1 for the first clause, TV2 (the last byte) for the second. -/
theorem witness_TxevtSendsOldestByte :
    let last := { txFull3 with txTail := 2 }
    (txFull3.txTail < txFull3.cfg.tcap ∧ txFull3.txTail ≠ txFull3.txHead ∧ txFull3.cfg.wf = true ∧
        txFull3.txHead < txFull3.cfg.tcap) ∧
      (last.txTail < last.cfg.tcap ∧ last.txTail ≠ last.txHead ∧ (last.txTail + 1) % last.cfg.tcap = last.txHead) := by
  decide

theorem witness_TxevtOnEmptyDisarms : ready.txTail = ready.txHead := rfl

theorem witness_TxevtAlwaysCounts :
    (∃ t, exec .txevt { txFull3 with txCount := 15 } = .next t) ∧
      ({ txFull3 with txCount := 15 } : State).txCount = 2 ^ txFull3.cfg.cw - 1 := ⟨⟨_, rfl⟩, by decide⟩

theorem witness_DrainingTakesOneMoreEvent : txFull3.cfg.wf = true ∧ txFull3.indicesOk := by decide

theorem witness_EventsLeaveForegroundStanding :
    Instr.txevt.context = .event ∧ ∃ t, exec .txevt atE5 = .next t := ⟨rfl, _, rfl⟩

theorem witness_RxevtFrame : (∃ t, exec (.rxevt 0x31#8) ready = .next t) ∧ rxevtStores ready = some 0 :=
  ⟨⟨_, rfl⟩, rfl⟩

theorem witness_NonStoringOperationsKeepEveryByte :
    (Instr.rxdeq ∈ [Instr.rxdeq, .rdtxc, .rdrxc, .setup, .txevt] ∧ ∃ t, exec .rxdeq atQ4 = .next t) ∧
      (∃ t, exec .rdtxc ready = .next t) ∧ (∃ t, exec .rdrxc ready = .next t) ∧ (∃ t, exec .setup ready = .next t) ∧
      ∃ t, exec .txevt txFull3 = .next t :=
  ⟨⟨by decide, _, rfl⟩, ⟨_, rfl⟩, ⟨_, rfl⟩, ⟨_, rfl⟩, _, rfl⟩

theorem witness_EventsCommute : txFull3.indicesOk := by decide

theorem witness_OppositeDirectionsCommute : atE3.Inv ∧ atQ3.Inv := by decide

theorem witness_SetupResetsRecordAndArmsReception :
    txFull3.fg = .idle ∧ (busy .setup txFull3).fg = .busy .setup ∧ (busy .setup txFull3).cfg.wf = true := by decide

theorem witness_SetupIsIdempotent : txFull3.fg = .idle := rfl

/-- The ledger of `rxFull3`: set up, three bytes stored. -/
def received3 : Ledger := { Ledger.empty with rxStored := [0x31#8, 0x32#8, 0x33#8], setUp := true }

theorem witness_DiagnosticsAnswerCounters :
    rxFull3.fg = .idle ∧ (busy .rdtxc rxFull3).fg = .busy .rdtxc ∧ (busy .rdrxc rxFull3).fg = .busy .rdrxc ∧
      rxFull3.Inv ∧ Ledger.balanced received3 rxFull3 ∧ ∃ t, step rxFull3 = .next t :=
  ⟨rfl, rfl, rfl, by decide, ⟨rfl, rfl, by decide, by decide, by decide, rfl⟩, _, rfl⟩

theorem witness_WholeMachineRules :
    (∃ t, step atE4 = .next t ∧ t.txHead ≠ atE4.txHead) ∧ nextKind atE4 atE4.input = .fgStep ∧
      (∃ t, step atQ4 = .next t ∧ t.rxTail ≠ atQ4.rxTail) ∧ nextKind atQ4 atQ4.input = .fgStep ∧
      (∃ t, step (offering (Script.rxevt 0x31#8) ready) = .next t ∧ t.rxHead ≠ 0) ∧
      (∃ t, step (offering Script.txevt txFull3) = .next t ∧ t.txTail ≠ 0) :=
  ⟨⟨_, rfl, by decide⟩, rfl, ⟨_, rfl, by decide⟩, rfl, ⟨_, rfl, by decide⟩, _, rfl, by decide⟩

theorem witness_EnableLifeCycles :
    (nextKind (offering Script.rst ready) (offering Script.rst ready).input = .reset) ∧
      (nextKind (busy .setup ready) (busy .setup ready).input = .fgStep) ∧
      (nextKind atE5 atE5.input = .fgStep ∧ atE5.fg = .busy (.txenq (.e5 0x41#8 0 1 0))) ∧
      (nextKind (offering Script.txevt txFull3) (offering Script.txevt txFull3).input = .evTx) ∧
      (nextKind (offering (Script.rxevt 0x31#8) ready) (offering (Script.rxevt 0x31#8) ready).input = .evRx 0x31#8) ∧
      (nextKind (offering (Script.present 0x200#12) ready) (offering (Script.present 0x200#12) ready).input =
        .fgAccept 0x200#12) ∧
      nextKind ready ready.input = .hold := by decide

theorem witness_EveryOperationAnswersInFiveMicroSteps :
    atE1.Inv ∧ (∃ t, step atE1 = .next t) ∧ nextKind atE1 atE1.input = .fgStep ∧
      (offering (Script.present 0x141#12) ready).Inv ∧ (∃ t, step (offering (Script.present 0x141#12) ready) = .next t) :=
  ⟨by decide, ⟨_, rfl⟩, rfl, by decide, _, rfl⟩

theorem witness_LedgerStaysBalanced :
    rxFull3.Inv ∧ Ledger.balanced received3 rxFull3 ∧ ∃ t, step rxFull3 = .next t :=
  ⟨by decide, ⟨rfl, rfl, by decide, by decide, by decide, rfl⟩, _, rfl⟩

theorem witness_CapacityIsOneLessThanSlots :
    let s := { smallest with inputs := Script.txenqs [0xAA#8, 0xBB#8] }
    let r := { smallest with inputs := Script.inject [0xAA#8, 0xBB#8] }
    (s.Inv ∧ s.fg = .idle ∧ s.txHead = s.txTail ∧ [0xAA#8, 0xBB#8].length = s.cfg.tcap) ∧
      (txFull3.Inv ∧ txFull3.txTail ≠ txFull3.txHead) ∧
      (r.Inv ∧ r.launched = true ∧ r.rxHead = r.rxTail ∧ [0xAA#8, 0xBB#8].length = r.cfg.rcap) := by
  refine ⟨?_, ?_, ?_⟩ <;> decide

/-- The two sides of the launch premise (R193): after SETUP, after hardware reset. -/
theorem test_launch_premise : ready.launched = true ∧ State.reset.launched = false := by decide

theorem witness_ReceivedBytesComeOutInOrder :
    let s := { ready with inputs := Script.inject [0x31#8, 0x32#8, 0x33#8] ++ Script.dequeues 3 }
    s.Inv ∧ s.fg = .idle ∧ s.launched = true ∧ s.rxHead = s.rxTail ∧ [0x31#8, 0x32#8, 0x33#8].length ≤ s.cfg.rcap - 1 := by
  decide

theorem witness_BuffersAreEmptyAfterDraining :
    let r := { smallest with inputs := Script.inject [0x01#8] ++ Script.dequeues 2 }
    let s := { smallest with txie := false, inputs := Script.txenqs [0xAA#8] ++ Script.drain 2 }
    let armed := { smallest with inputs := Script.txenqs [] ++ Script.drain 1 }
    (r.Inv ∧ r.fg = .idle ∧ r.launched = true ∧ r.rxHead = r.rxTail ∧ [0x01#8].length ≤ r.cfg.rcap - 1) ∧
      (s.Inv ∧ s.fg = .idle ∧ s.txie = false ∧ [0xAA#8] ≠ [] ∧ s.txHead = s.txTail ∧
        [0xAA#8].length ≤ s.cfg.tcap - 1) ∧
      (armed.Inv ∧ armed.fg = .idle ∧ armed.txie = true ∧ armed.txHead = armed.txTail) := by
  refine ⟨?_, ?_, ?_⟩ <;> decide

theorem witness_EnqueueRearmsTransmitSourceOnce :
    smallest.cfg.wf = true ∧ smallest.indicesOk ∧ smallest.fg = .idle ∧ smallest.txHead = smallest.txTail := by decide

/-- IN4 at its step E4. -/
theorem witness_ArmedOverEmptyBufferAfterRace :
    let s := { atE4 with txie := true }
    s.Inv ∧ s.fg = .busy (.txenq (.e4 0x41#8 0 1 0)) ∧ s.txHead = s.txTail ∧ s.txie = true := by decide

theorem witness_UnspecifiedBytesAreUnobservable :
    (offering Script.txevt txFull3).Inv ∧ ∃ t, step (offering Script.txevt txFull3) = .next t :=
  ⟨by decide, _, rfl⟩

theorem witness_CountersDecideNothing :
    (∃ t, step atQ4 = .next t) ∧
      ¬(nextKind atQ4 atQ4.input = .fgStep ∧ (atQ4.fg = .busy .rdtxc ∨ atQ4.fg = .busy .rdrxc)) :=
  ⟨⟨_, rfl⟩, by decide⟩

theorem witness_QuiescentReadyMeansDrained :
    let s := offering { Inputs.quiet with txReady := true } ready
    s.Inv ∧ s.quiescent = true ∧ s.input.txReady = true := by decide

end Sys2Proof.Tests
end

section
/-! PROOFS. The build-time parameters: what the configuration check asks, and the index widths (00_scope R7 to
R14). -/

namespace Sys2Proof

theorem clog_two_lt_self {n : Nat} (hn : 0 < n) : Nat.clog 2 n < n := by
  have h : Nat.clog 2 n ≤ n - 1 := Nat.clog_le_of_le_pow (Nat.le_of_pred_lt Nat.lt_two_pow_self)
  omega

/-- The search of `ceilLog2` finds the logarithm, which lies in the range it searches. -/
theorem ceilLog2_eq_clog {n : Nat} (hn : 0 < n) : ceilLog2 n = Nat.clog 2 n := by
  have hfind : (List.range n).find? (fun k => decide (n ≤ 2 ^ k)) = some (Nat.clog 2 n) := by
    refine List.find?_range_eq_some.2 ⟨?_, ?_, fun k hk => ?_⟩
    · exact decide_eq_true (Nat.le_pow_clog one_lt_two n)
    · exact List.mem_range.2 (clog_two_lt_self hn)
    · simpa using Nat.pow_lt_of_lt_clog hk
  rw [ceilLog2, hfind, Option.getD_some]

theorem lt_two_pow_max_clog {n i : Nat} (h : i < n) : i < 2 ^ max 1 (Nat.clog 2 n) :=
  calc i < n := h
    _ ≤ 2 ^ Nat.clog 2 n := Nat.le_pow_clog one_lt_two n
    _ ≤ 2 ^ max 1 (Nat.clog 2 n) := Nat.pow_le_pow_right two_pos (le_max_right ..)

theorem Config.iwr_eq_clog {c : Config} (h : 0 < c.rcap) : c.iwr = max 1 (Nat.clog 2 c.rcap) := by
  rw [iwr, ceilLog2_eq_clog h]

theorem Config.iwt_eq_clog {c : Config} (h : 0 < c.tcap) : c.iwt = max 1 (Nat.clog 2 c.tcap) := by
  rw [iwt, ceilLog2_eq_clog h]

theorem Config.divisorOk_iff (c : Config) :
    c.divisorOk = true ↔ c.div < 2 ^ c.divw ∧ (c.divRule = .quotient → c.baud ≠ 0) := by
  simp only [divisorOk, Bool.and_eq_true, Bool.or_eq_true, decide_eq_true_eq, imp_iff_not_or, ne_eq]

theorem Config.wf_iff (c : Config) :
    c.wf = true ↔
      2 ≤ c.rcap ∧ 2 ≤ c.tcap ∧ 1 ≤ c.cw ∧ c.div < 2 ^ c.divw ∧ (c.divRule = .quotient → c.baud ≠ 0) := by
  simp only [wf, capacitiesOk, counterWidthOk, Bool.and_eq_true, decide_eq_true_eq, divisorOk_iff, and_assoc]

/-- Settles O5: `ceilLog2` is Mathlib's `Nat.clog 2`, and a capacity is at most 2 to its logarithm. -/
theorem indexWidthsHoldEveryIndex : Obligations.IndexWidthsHoldEveryIndex := by
  intro c hr ht
  have hiwr := Config.iwr_eq_clog (c := c) (by omega)
  have hiwt := Config.iwt_eq_clog (c := c) (by omega)
  exact ⟨hiwr, hiwt, fun i hi => hiwr ▸ lt_two_pow_max_clog hi, fun i hi => hiwt ▸ lt_two_pow_max_clog hi⟩

/-- Settles O12, from the check's conjuncts and the refusal of an ill-formed configuration. -/
theorem illFormedConfigurationNeverRuns : Obligations.IllFormedConfigurationNeverRuns :=
  ⟨Config.wf_iff, fun _ => Machine.step_illFormed⟩

end Sys2Proof
end

section
/-! PROOFS. What each atomic step can do: acceptance, the micro-steps, the events; then what every step keeps of the
configuration and the sequencer. -/

namespace Sys2Proof

theorem context_of_decode_foreground {w : OpWord} {i : Instr} (h : decode .foreground w = .ok i) :
    i.context = .foreground := by
  simp only [decode, decodeFg] at h
  split_ifs at h <;> cases h <;> rfl

namespace Machine

/-- The micro-step of an operation in flight (10_state R36); `exec_op_of_busy` ties it to `exec`. -/
def Flight.microStep (f : Flight) (s : State) : Host.Outcome State Fault Refusal :=
  match f with
  | .txenq p => txenqMicro p s
  | .rxdeq p => rxdeqMicro p s
  | .rdtxc => rdtxcC1 s
  | .rdrxc => rdrxcC1 s
  | .setup => setupS1 s

theorem exec_op_of_busy {s : State} {f : Flight} (h : s.fg = .busy f) : exec f.op s = f.microStep s := by
  cases f with
  | txenq p => cases p <;> exact foregroundOp_own _ _ h rfl
  | rxdeq p => exact foregroundOp_own _ _ h rfl
  | rdtxc => exact foregroundOp_own _ _ h rfl
  | rdrxc => exact foregroundOp_own _ _ h rfl
  | setup => exact foregroundOp_own _ _ h rfl

/-- An idle sequencer accepts every foreground operation (30_encoding R90). -/
theorem exec_of_idle {s : State} {i : Instr} (hi : i.context = .foreground) (h : s.fg = .idle) :
    ∃ f : Flight, f.op = i ∧ exec i s = .next (s.setFg (.busy f)) := by
  cases i with
  | txenq b => exact ⟨.txenq (.e1 b), rfl, foregroundOp_idle _ _ _ h⟩
  | rxdeq => exact ⟨.rxdeq .q1, rfl, foregroundOp_idle _ _ _ h⟩
  | rdtxc => exact ⟨.rdtxc, rfl, foregroundOp_idle _ _ _ h⟩
  | rdrxc => exact ⟨.rdrxc, rfl, foregroundOp_idle _ _ _ h⟩
  | setup => exact ⟨.setup, rfl, foregroundOp_idle _ _ _ h⟩
  | rxevt b => cases hi
  | txevt => cases hi

/-- What an idle port does with a word (30_encoding R85, R90): accept the operation it names, or answer ILLEGAL. -/
theorem acceptWord_next {s t : State} {w : OpWord} (hidle : s.fg = .idle) (h : acceptWord w s = .next t) :
    (∃ f : Flight, decode .foreground w = .ok f.op ∧ t = s.setFg (.busy f)) ∨
      (∃ e, decode .foreground w = .error e ∧ t = s.respond w .illegal 0) := by
  unfold acceptWord at h
  split at h
  · next i hd =>
    obtain ⟨f, rfl, hf⟩ := exec_of_idle (context_of_decode_foreground hd) hidle
    rw [hf] at h
    cases h
    exact .inl ⟨f, hd, rfl⟩
  · next e hd =>
    cases h
    exact .inr ⟨e, hd, rfl⟩

/-- What a micro-step of TXENQ can do, point by point (40_foreground_ops R100). -/
theorem txenqMicro_next {s t : State} {p : TxenqAt} (hp : txenqMicro p s = .next t) :
    (∃ b, p = .e1 b ∧ t = s.setFg (.busy (.txenq (.e2 b s.txHead (inc s.cfg.tcap s.txHead))))) ∨
      (∃ b h next, p = .e2 b h next ∧ next = s.txTail ∧ t = s.respond (encode (.txenq b)) .full 0) ∨
      (∃ b h next, p = .e2 b h next ∧ next ≠ s.txTail ∧ t = s.setFg (.busy (.txenq (.e3 b h next s.txTail)))) ∨
      (∃ b h next u, p = .e3 b h next u ∧ h < s.cfg.tcap ∧
        t = { s with txBuf := s.txBuf.store h b }.setFg (.busy (.txenq (.e4 b h next u)))) ∨
      (∃ b h next u, p = .e4 b h next u ∧ t = { s with txHead := next }.setFg (.busy (.txenq (.e5 b h next u)))) ∨
      (∃ b h next u, p = .e5 b h next u ∧ t = { s with txie := true }.respond (encode (.txenq b)) .ok 0) := by
  cases p with
  | e1 b =>
    cases hp
    exact .inl ⟨b, rfl, rfl⟩
  | e2 b h next =>
    simp only [txenqMicro, txenqE2] at hp
    split at hp
    · next e =>
      cases hp
      exact .inr (.inl ⟨b, h, next, rfl, e, rfl⟩)
    · next e =>
      cases hp
      exact .inr (.inr (.inl ⟨b, h, next, rfl, e, rfl⟩))
  | e3 b h next u =>
    obtain ⟨s', hs, hk⟩ := afterAccess_next hp
    obtain ⟨hr, rfl⟩ := writeTx_ok_iff.1 hs
    cases hk
    exact .inr (.inr (.inr (.inl ⟨b, h, next, u, rfl, hr, rfl⟩)))
  | e4 b h next u =>
    cases hp
    exact .inr (.inr (.inr (.inr (.inl ⟨b, h, next, u, rfl, rfl⟩))))
  | e5 b h next u =>
    cases hp
    exact .inr (.inr (.inr (.inr (.inr ⟨b, h, next, u, rfl, rfl⟩))))

/-- What a micro-step of RXDEQ can do, point by point (40_foreground_ops R105). -/
theorem rxdeqMicro_next {s t : State} {p : RxdeqAt} (hp : rxdeqMicro p s = .next t) :
    (p = .q1 ∧ t = s.setFg (.busy (.rxdeq (.q2 s.rxTail)))) ∨
      (∃ u, p = .q2 u ∧ s.rxHead = u ∧ t = s.respond (encode .rxdeq) .empty 0) ∨
      (∃ u, p = .q2 u ∧ s.rxHead ≠ u ∧ t = s.setFg (.busy (.rxdeq (.q3 u s.rxHead)))) ∨
      (∃ u h, p = .q3 u h ∧ u < s.cfg.rcap ∧ t = s.setFg (.busy (.rxdeq (.q4 u h (s.rxSlot u))))) ∨
      (∃ u h v, p = .q4 u h v ∧
        t = { s with rxTail := inc s.cfg.rcap u }.respond (encode .rxdeq) .ok (zextByte v)) := by
  cases p with
  | q1 =>
    cases hp
    exact .inl ⟨rfl, rfl⟩
  | q2 u =>
    simp only [rxdeqMicro, rxdeqQ2] at hp
    split at hp
    · next e =>
      cases hp
      exact .inr (.inl ⟨u, rfl, e, rfl⟩)
    · next e =>
      cases hp
      exact .inr (.inr (.inl ⟨u, rfl, e, rfl⟩))
  | q3 u h =>
    obtain ⟨v, hv, hk⟩ := afterAccess_next hp
    obtain ⟨hr, rfl⟩ := readRx_ok_iff.1 hv
    cases hk
    exact .inr (.inr (.inr (.inl ⟨u, h, rfl, hr, rfl⟩)))
  | q4 u h v =>
    cases hp
    exact .inr (.inr (.inr (.inr ⟨u, h, v, rfl, rfl⟩)))

/-- Every micro-step either brings the operation to a point closer to its answer and emits nothing, or answers and
leaves the sequencer idle (00_scope R19, 30_encoding R90); the configuration stays. -/
theorem microStep_next {f : Flight} {s t : State} (h : f.microStep s = .next t) :
    t.cfg = s.cfg ∧
      ((∃ g : Flight, t.fg = .busy g ∧ g.op = f.op ∧ g.remaining < f.remaining ∧ t.out = s.out) ∨
        (t.fg = .idle ∧ t.out.fgRsp.isSome = true)) := by
  cases f with
  | txenq p =>
    rcases txenqMicro_next h with ⟨b, rfl, rfl⟩ | ⟨b, h, next, rfl, -, rfl⟩ | ⟨b, h, next, rfl, -, rfl⟩ |
      ⟨b, h, next, u, rfl, -, rfl⟩ | ⟨b, h, next, u, rfl, rfl⟩ | ⟨b, h, next, u, rfl, rfl⟩
    · exact ⟨rfl, .inl ⟨_, rfl, rfl, by simp [Flight.remaining], rfl⟩⟩
    · exact ⟨rfl, .inr ⟨rfl, rfl⟩⟩
    · exact ⟨rfl, .inl ⟨_, rfl, rfl, by simp [Flight.remaining], rfl⟩⟩
    · exact ⟨rfl, .inl ⟨_, rfl, rfl, by simp [Flight.remaining], rfl⟩⟩
    · exact ⟨rfl, .inl ⟨_, rfl, rfl, by simp [Flight.remaining], rfl⟩⟩
    · exact ⟨rfl, .inr ⟨rfl, rfl⟩⟩
  | rxdeq p =>
    rcases rxdeqMicro_next h with ⟨rfl, rfl⟩ | ⟨u, rfl, -, rfl⟩ | ⟨u, rfl, -, rfl⟩ | ⟨u, h, rfl, -, rfl⟩ |
      ⟨u, h, v, rfl, rfl⟩
    · exact ⟨rfl, .inl ⟨_, rfl, rfl, by simp [Flight.remaining], rfl⟩⟩
    · exact ⟨rfl, .inr ⟨rfl, rfl⟩⟩
    · exact ⟨rfl, .inl ⟨_, rfl, rfl, by simp [Flight.remaining], rfl⟩⟩
    · exact ⟨rfl, .inl ⟨_, rfl, rfl, by simp [Flight.remaining], rfl⟩⟩
    · exact ⟨rfl, .inr ⟨rfl, rfl⟩⟩
  | rdtxc => cases h; exact ⟨rfl, .inr ⟨rfl, rfl⟩⟩
  | rdrxc => cases h; exact ⟨rfl, .inr ⟨rfl, rfl⟩⟩
  | setup => cases h; exact ⟨rfl, .inr ⟨rfl, rfl⟩⟩

theorem Flight.remaining_pos (f : Flight) : 0 < f.remaining := by
  cases f with
  | txenq p => cases p <;> exact Nat.succ_pos _
  | rxdeq p => cases p <;> exact Nat.succ_pos _
  | rdtxc => exact Nat.one_pos
  | rdrxc => exact Nat.one_pos
  | setup => exact Nat.one_pos

theorem Flight.remaining_le_five (f : Flight) : f.remaining ≤ 5 := by
  cases f with
  | txenq p => cases p <;> simp [remaining]
  | rxdeq p => cases p <;> simp [remaining]
  | rdtxc => simp [remaining]
  | rdrxc => simp [remaining]
  | setup => simp [remaining]

/-- RXEVT leaves the configuration, the sequencer and the response port as they were (60_exceptions R174). -/
theorem execRxevt_keeps_foreground {s t : State} {b : Byte} (h : execRxevt b s = .next t) :
    t.cfg = s.cfg ∧ t.fg = s.fg ∧ t.rsp = s.rsp ∧ t.out.fgRsp = s.out.fgRsp := by
  rw [execRxevt, eventOp_eq] at h
  rcases rxevtStore_next h with ⟨-, rfl⟩ | ⟨-, -, rfl⟩ <;> exact ⟨rfl, rfl, rfl, rfl⟩

/-- TXEVT leaves the configuration, the sequencer and the response port as they were (60_exceptions R174). -/
theorem execTxevt_keeps_foreground {s t : State} (h : execTxevt s = .next t) :
    t.cfg = s.cfg ∧ t.fg = s.fg ∧ t.rsp = s.rsp ∧ t.out.fgRsp = s.out.fgRsp := by
  rw [execTxevt, eventOp_eq] at h
  rcases txevtSend_next h with ⟨-, rfl⟩ | ⟨-, -, rfl⟩ <;> exact ⟨rfl, rfl, rfl, rfl⟩

/-- Settles O13: acceptance, micro-steps and events keep the configuration, and reset takes it over. -/
theorem stepKeepsConfiguration : Obligations.StepKeepsConfiguration := by
  intro s t h
  rcases step_cases h with ⟨w, -, hidle, hw⟩ | ⟨f, -, hf, hx⟩ | ⟨b, -, -, hx⟩ | ⟨-, -, hx⟩ | ⟨-, rfl⟩ | ⟨-, rfl⟩
  · rcases acceptWord_next (s := s.beginStep) hidle hw with ⟨f, -, rfl⟩ | ⟨e, -, rfl⟩ <;> rfl
  · rw [exec_op_of_busy (s := s.beginStep) hf] at hx
    exact (microStep_next hx).1
  · exact (execRxevt_keeps_foreground hx).1
  · exact (execTxevt_keeps_foreground hx).1
  · rfl
  · rfl

/-- A step of kind `fgStep` is the micro-step of the operation in flight, after the step has begun. -/
theorem step_of_fgStep {s t : State} (h : step s = .next t) (hk : nextKind s s.input = .fgStep) :
    ∃ f, s.fg = .busy f ∧ f.microStep s.beginStep = .next t := by
  obtain ⟨-, hp⟩ := step_next h
  obtain ⟨-, -, f, hf⟩ := nextKind_fgStep hk
  rw [hk] at hp
  refine ⟨f, hf, ?_⟩
  rw [← exec_op_of_busy (s := s.beginStep) hf]
  simpa [perform, foregroundStep, hf] using hp

theorem fgStep_lowers_remaining {s t : State} (h : step s = .next t) (hk : nextKind s s.input = .fgStep) :
    t.fg.remaining < s.fg.remaining ∧ (t.fg = .idle ↔ t.out.fgRsp.isSome = true) := by
  obtain ⟨f, hf, hm⟩ := step_of_fgStep h hk
  obtain ⟨-, ⟨g, hg, -, hlt, hout⟩ | ⟨hidle, hrsp⟩⟩ := microStep_next hm
  · simp [hf, hg, hout, Fg.remaining, hlt, Strobes.quiet]
  · simp [hf, hidle, hrsp, Fg.remaining, f.remaining_pos]

theorem fgAccept_remaining_le_five {s t : State} {w : OpWord} (h : step s = .next t)
    (hk : nextKind s s.input = .fgAccept w) :
    t.fg.remaining ≤ 5 ∧ (t.fg = .idle ↔ t.out.fgRsp.isSome = true) := by
  obtain ⟨-, hp⟩ := step_next h
  obtain ⟨-, -, hidle, -⟩ := nextKind_fgAccept hk
  rw [hk] at hp
  rcases acceptWord_next (s := s.beginStep) hidle hp with ⟨f, -, rfl⟩ | ⟨e, -, rfl⟩
  · simp [Fg.remaining, f.remaining_le_five, Strobes.quiet]
  · simp [Fg.remaining]

/-- Events and holds leave the sequencer standing and emit no response (60_exceptions R174). -/
theorem event_or_hold_keeps_fg {s t : State} (h : step s = .next t) (hstep : nextKind s s.input ≠ .fgStep)
    (haccept : ∀ w, nextKind s s.input ≠ .fgAccept w) (hreset : nextKind s s.input ≠ .reset) :
    t.fg = s.fg ∧ t.out.fgRsp = none := by
  rcases step_cases h with ⟨w, hk, -⟩ | ⟨f, hk, -⟩ | ⟨b, -, -, hx⟩ | ⟨-, -, hx⟩ | ⟨hk, -⟩ | ⟨-, rfl⟩
  · exact absurd hk (haccept w)
  · exact absurd hk hstep
  · obtain ⟨-, hfg, -, hrsp⟩ := execRxevt_keeps_foreground hx
    exact ⟨hfg, hrsp⟩
  · obtain ⟨-, hfg, -, hrsp⟩ := execTxevt_keeps_foreground hx
    exact ⟨hfg, hrsp⟩
  · exact absurd hk hreset
  · exact ⟨rfl, rfl⟩

/-- Settles O50, by the kind of the step. No conjunct of the invariant is needed. -/
theorem everyOperationAnswersInFiveMicroSteps : Obligations.EveryOperationAnswersInFiveMicroSteps := by
  intro s t _ h
  exact ⟨fgStep_lowers_remaining h, fun _ => fgAccept_remaining_le_five h, event_or_hold_keeps_fg h⟩

end Machine
end Sys2Proof
end

section
/-! PROOFS. The state: flags and levels (10_state R26 to R28), the buffers' canonical form and the writers of the
index registers (R21, R22, R29), buffer bytes after hardware reset (R43). -/

namespace Sys2Proof.Machine

/-- The level is `(head - tail) mod n` over the integers (R28). -/
theorem level_eq_emod {n hd tl : Nat} (ht : tl < n) : (level n hd tl : Int) = ((hd : Int) - tl) % n := by
  have hle : tl ≤ hd + n := by omega
  rw [level, Int.natCast_emod, Int.natCast_sub hle, Int.natCast_add, add_sub_right_comm, Int.add_emod_right]

theorem level_le_pred {n hd tl : Nat} (hh : hd < n) (ht : tl < n) : level n hd tl ≤ n - 1 :=
  Nat.le_sub_one_of_lt (level_lt hh ht)

theorem rxEmpty_iff {s : State} : s.rxEmpty = true ↔ s.rxHead = s.rxTail := beq_iff_eq

theorem txEmpty_iff {s : State} : s.txEmpty = true ↔ s.txHead = s.txTail := beq_iff_eq

theorem rxFull_iff {s : State} : s.rxFull = true ↔ inc s.cfg.rcap s.rxHead = s.rxTail := beq_iff_eq

theorem txFull_iff {s : State} : s.txFull = true ↔ inc s.cfg.tcap s.txHead = s.txTail := beq_iff_eq

/-- No buffer is empty and full: with two slots or more the head's successor is not the head. -/
theorem not_empty_and_full {n hd tl : Nat} (hn : 2 ≤ n) (hh : hd < n) : ¬(hd = tl ∧ inc n hd = tl) := by
  rintro ⟨rfl, hf⟩
  exact inc_ne_self hn hh hf

/-- Settles O21, buffer by buffer from the laws of `level` and `inc`. -/
theorem flagsAgreeWithLevels : Obligations.FlagsAgreeWithLevels := by
  intro s hw ⟨hrh, hrt, hth, htt⟩
  obtain ⟨hr, ht, -⟩ := (Config.wf_iff s.cfg).1 hw
  exact ⟨level_eq_emod hrt, level_eq_emod htt, rxEmpty_iff, txEmpty_iff, rxFull_iff, txFull_iff,
    level_le_pred hrh hrt, level_le_pred hth htt,
    rxEmpty_iff.trans (level_eq_zero hrh hrt).symm, txEmpty_iff.trans (level_eq_zero hth htt).symm,
    rxFull_iff.trans (full_iff_level hrh hrt), txFull_iff.trans (full_iff_level hth htt),
    fun ⟨he, hf⟩ => not_empty_and_full hr hrh ⟨rxEmpty_iff.1 he, rxFull_iff.1 hf⟩,
    fun ⟨he, hf⟩ => not_empty_and_full ht hth ⟨txEmpty_iff.1 he, txFull_iff.1 hf⟩⟩

/-- A micro-step of TXENQ stores at most one byte, into the transmit buffer, and writes no index but `tx_head`. -/
theorem txenqMicro_keeps {s t : State} {p : TxenqAt} (hp : txenqMicro p s = .next t) :
    (t.txBuf = s.txBuf ∨ ∃ i v, t.txBuf = s.txBuf.store i v) ∧
      t.rxBuf = s.rxBuf ∧ t.rxHead = s.rxHead ∧ t.rxTail = s.rxTail ∧ t.txTail = s.txTail := by
  rcases txenqMicro_next hp with ⟨b, -, rfl⟩ | ⟨b, h, next, -, -, rfl⟩ | ⟨b, h, next, -, -, rfl⟩ |
    ⟨b, h, next, u, -, -, rfl⟩ | ⟨b, h, next, u, -, rfl⟩ | ⟨b, h, next, u, -, rfl⟩
  · exact ⟨.inl rfl, rfl, rfl, rfl, rfl⟩
  · exact ⟨.inl rfl, rfl, rfl, rfl, rfl⟩
  · exact ⟨.inl rfl, rfl, rfl, rfl, rfl⟩
  · exact ⟨.inr ⟨h, b, rfl⟩, rfl, rfl, rfl, rfl⟩
  · exact ⟨.inl rfl, rfl, rfl, rfl, rfl⟩
  · exact ⟨.inl rfl, rfl, rfl, rfl, rfl⟩

/-- A micro-step of RXDEQ stores nothing and writes no index but `rx_tail`. -/
theorem rxdeqMicro_keeps {s t : State} {p : RxdeqAt} (h : rxdeqMicro p s = .next t) :
    t.rxBuf = s.rxBuf ∧ t.txBuf = s.txBuf ∧ t.rxHead = s.rxHead ∧ t.txHead = s.txHead ∧ t.txTail = s.txTail := by
  rcases rxdeqMicro_next h with ⟨-, rfl⟩ | ⟨u, -, -, rfl⟩ | ⟨u, -, -, rfl⟩ | ⟨u, h, -, -, rfl⟩ | ⟨u, h, v, -, rfl⟩ <;>
    exact ⟨rfl, rfl, rfl, rfl, rfl⟩

/-- RXEVT stores at most one byte, into the receive buffer, and writes no index but `rx_head`. -/
theorem execRxevt_keeps_transmit {s t : State} {b : Byte} (h : execRxevt b s = .next t) :
    (t.rxBuf = s.rxBuf ∨ ∃ i v, t.rxBuf = s.rxBuf.store i v) ∧
      t.txBuf = s.txBuf ∧ t.rxTail = s.rxTail ∧ t.txHead = s.txHead ∧ t.txTail = s.txTail := by
  rw [execRxevt, eventOp_eq] at h
  rcases rxevtStore_next h with ⟨-, rfl⟩ | ⟨-, -, rfl⟩
  · exact ⟨.inl rfl, rfl, rfl, rfl, rfl⟩
  · exact ⟨.inr ⟨_, b, rfl⟩, rfl, rfl, rfl, rfl⟩

/-- TXEVT stores nothing and writes no index but `tx_tail`. -/
theorem execTxevt_keeps_receive {s t : State} (h : execTxevt s = .next t) :
    t.rxBuf = s.rxBuf ∧ t.txBuf = s.txBuf ∧ t.rxHead = s.rxHead ∧ t.rxTail = s.rxTail ∧ t.txHead = s.txHead := by
  rw [execTxevt, eventOp_eq] at h
  rcases txevtSend_next h with ⟨-, rfl⟩ | ⟨-, -, rfl⟩ <;> exact ⟨rfl, rfl, rfl, rfl, rfl⟩

/-- The accepting step of a word touches no buffer and no index (30_encoding R85, R90). -/
theorem acceptWord_keeps {s t : State} {w : OpWord} (hidle : s.fg = .idle) (h : acceptWord w s = .next t) :
    t.rxBuf = s.rxBuf ∧ t.txBuf = s.txBuf ∧
      t.rxHead = s.rxHead ∧ t.rxTail = s.rxTail ∧ t.txHead = s.txHead ∧ t.txTail = s.txTail := by
  rcases acceptWord_next hidle h with ⟨f, -, rfl⟩ | ⟨e, -, rfl⟩ <;> exact ⟨rfl, rfl, rfl, rfl, rfl, rfl⟩

theorem Memory.wf_of_eq_or_store {m m' : Memory} (hm : m.wf) (h : m' = m ∨ ∃ i v, m' = m.store i v) : m'.wf := by
  rcases h with rfl | ⟨i, v, rfl⟩
  · exact hm
  · exact Memory.store_wf i v hm

/-- Only TXENQ touches a buffer in a micro-step, and its store keeps the canonical form. -/
theorem microStep_keeps_canonical {f : Flight} {s t : State} (hrx : s.rxBuf.wf) (htx : s.txBuf.wf)
    (h : f.microStep s = .next t) : t.rxBuf.wf ∧ t.txBuf.wf := by
  cases f with
  | txenq p =>
    obtain ⟨htxBuf, hrxBuf, -⟩ := txenqMicro_keeps h
    exact ⟨hrxBuf ▸ hrx, Memory.wf_of_eq_or_store htx htxBuf⟩
  | rxdeq p =>
    obtain ⟨hrxBuf, htxBuf, -⟩ := rxdeqMicro_keeps h
    exact ⟨hrxBuf ▸ hrx, htxBuf ▸ htx⟩
  | rdtxc => cases h; exact ⟨hrx, htx⟩
  | rdrxc => cases h; exact ⟨hrx, htx⟩
  | setup => cases h; exact ⟨hrx, htx⟩

/-- Settles O11: a step stores into a buffer by `Memory.store`, leaves it, or empties it. -/
theorem stepKeepsBuffersCanonical : Obligations.StepKeepsBuffersCanonical := by
  intro s t hrx htx h
  rcases step_cases h with ⟨w, -, hidle, hw⟩ | ⟨f, -, hf, hx⟩ | ⟨b, -, -, hx⟩ | ⟨-, -, hx⟩ | ⟨-, rfl⟩ | ⟨-, rfl⟩
  · obtain ⟨hrxBuf, htxBuf, -⟩ := acceptWord_keeps (s := s.beginStep) hidle hw
    exact ⟨hrxBuf ▸ hrx, htxBuf ▸ htx⟩
  · rw [exec_op_of_busy (s := s.beginStep) hf] at hx
    exact microStep_keeps_canonical (s := s.beginStep) hrx htx hx
  · obtain ⟨hrxBuf, htxBuf, -⟩ := execRxevt_keeps_transmit hx
    exact ⟨Memory.wf_of_eq_or_store (m := s.beginStep.rxBuf) hrx hrxBuf, htxBuf ▸ htx⟩
  · obtain ⟨hrxBuf, htxBuf, -⟩ := execTxevt_keeps_receive hx
    exact ⟨hrxBuf ▸ hrx, htxBuf ▸ htx⟩
  · exact ⟨Memory.empty_wf, Memory.empty_wf⟩
  · exact ⟨hrx, htx⟩

/-- Of the micro-steps other than SETUP's, only RXDEQ's write `rx_tail` and only TXENQ's write `tx_head`; none writes
the interrupt context's indices. -/
theorem microStep_index_writers {f : Flight} {s t : State} (hf : f ≠ .setup) (h : f.microStep s = .next t) :
    t.rxHead = s.rxHead ∧ t.txTail = s.txTail ∧
      (t.rxTail ≠ s.rxTail → ∃ p, f = .rxdeq p) ∧ (t.txHead ≠ s.txHead → ∃ p, f = .txenq p) := by
  cases f with
  | txenq p =>
    obtain ⟨-, -, hrh, hrt, htt⟩ := txenqMicro_keeps h
    exact ⟨hrh, htt, absurd hrt, fun _ => ⟨p, rfl⟩⟩
  | rxdeq p =>
    obtain ⟨-, -, hrh, hth, htt⟩ := rxdeqMicro_keeps h
    exact ⟨hrh, htt, fun _ => ⟨p, rfl⟩, absurd hth⟩
  | rdtxc => cases h; exact ⟨rfl, rfl, absurd rfl, absurd rfl⟩
  | rdrxc => cases h; exact ⟨rfl, rfl, absurd rfl, absurd rfl⟩
  | setup => exact absurd rfl hf

/-- Settles O47, by the kind of the step: each kind keeps every index but the one it owns. -/
theorem eachIndexHasOneWriter : Obligations.EachIndexHasOneWriter := by
  intro s t h hreset hsetup
  rcases step_cases h with ⟨w, -, hidle, hw⟩ | ⟨f, hk, hf, hx⟩ | ⟨b, hk, -, hx⟩ | ⟨hk, -, hx⟩ | ⟨hk, -⟩ | ⟨-, rfl⟩
  · obtain ⟨-, -, hrh, hrt, hth, htt⟩ := acceptWord_keeps (s := s.beginStep) hidle hw
    exact ⟨absurd hrh, absurd hrt, absurd hth, absurd htt⟩
  · rw [exec_op_of_busy (s := s.beginStep) hf] at hx
    have hf' : f ≠ .setup := fun e => hsetup ⟨hk, e ▸ hf⟩
    obtain ⟨hrh, htt, hrt, hth⟩ := microStep_index_writers hf' hx
    refine ⟨absurd hrh, fun hne => ⟨hk, ?_⟩, fun hne => ⟨hk, ?_⟩, absurd htt⟩
    · obtain ⟨p, rfl⟩ := hrt hne
      exact ⟨p, hf⟩
    · obtain ⟨p, rfl⟩ := hth hne
      exact ⟨p, hf⟩
  · obtain ⟨-, -, hrt, hth, htt⟩ := execRxevt_keeps_transmit hx
    exact ⟨fun _ => ⟨b, hk⟩, absurd hrt, absurd hth, absurd htt⟩
  · obtain ⟨-, -, hrh, hrt, hth⟩ := execTxevt_keeps_receive hx
    exact ⟨absurd hrh, absurd hrt, absurd hth, fun _ => hk⟩
  · exact absurd hk hreset
  · exact ⟨absurd rfl, absurd rfl, absurd rfl, absurd rfl⟩

/-- Reset wins over everything (70_reset R190). -/
theorem step_of_rst {s : State} (hw : s.cfg.wf = true) (hr : s.input.rst = true) :
    step s = .next s.beginStep.hardReset := by
  have hk : nextKind s s.input = .reset := if_pos hr
  rw [step_eq_perform hw, hk]
  rfl

/-- Settles O7: hardware reset lists no written slot and counts one reset more. -/
theorem hardwareResetLeavesBuffersUnspecified : Obligations.HardwareResetLeavesBuffersUnspecified := by
  intro s hw hr
  exact ⟨_, step_of_rst hw hr, fun _ => rfl, fun _ => rfl, rfl, rfl⟩

end Sys2Proof.Machine
end

section
/-! PROOFS. Noninterference (10_state R32, R43, R44): what a step can see of the counters and of the free buffer bytes,
and that it treats them alike otherwise. -/

namespace Sys2Proof.Machine

/-- `s` with other values in the fields that decide nothing: the counters (R32), and the count of hardware resets,
which selects the free buffer bytes (R43). -/
def State.withHidden (r c e : Nat) (s : State) : State := { s with rxCount := r, txCount := c, epoch := e }

/-- An operation stands at the same point after acceptance whatever else the state holds. -/
theorem exec_accepts {i : Instr} (hi : i.context = .foreground) :
    ∃ f : Flight, ∀ s : State, s.fg = .idle → exec i s = .next (s.setFg (.busy f)) := by
  cases i with
  | txenq b => exact ⟨.txenq (.e1 b), fun _ => foregroundOp_idle _ _ _⟩
  | rxdeq => exact ⟨.rxdeq .q1, fun _ => foregroundOp_idle _ _ _⟩
  | rdtxc => exact ⟨.rdtxc, fun _ => foregroundOp_idle _ _ _⟩
  | rdrxc => exact ⟨.rdrxc, fun _ => foregroundOp_idle _ _ _⟩
  | setup => exact ⟨.setup, fun _ => foregroundOp_idle _ _ _⟩
  | rxevt b => cases hi
  | txevt => cases hi

theorem acceptWord_withHidden {s t : State} {w : OpWord} (r c e : Nat) (hidle : s.fg = .idle)
    (h : acceptWord w s = .next t) : acceptWord w (s.withHidden r c e) = .next (t.withHidden r c e) := by
  unfold acceptWord at h ⊢
  split at h
  · next i hd =>
    obtain ⟨f, hf⟩ := exec_accepts (context_of_decode_foreground hd)
    rw [hf s hidle] at h
    cases h
    exact hf (s.withHidden r c e) hidle
  · cases h
    rfl

theorem txenqE3_inRange {s : State} {b : Byte} {h next u : Nat} (hr : h < s.cfg.tcap) :
    txenqE3 b h next u s =
      .next ({ s with txBuf := s.txBuf.store h b }.setFg (.busy (.txenq (.e4 b h next u)))) := by
  rw [txenqE3, writeTx_ok hr, afterAccess]

theorem rxdeqQ3_inRange {s : State} {u h : Nat} (hr : u < s.cfg.rcap) :
    rxdeqQ3 u h s = .next (s.setFg (.busy (.rxdeq (.q4 u h (s.rxSlot u))))) := by
  rw [rxdeqQ3, readRx_ok hr, afterAccess]

theorem txenqMicro_withHidden {s t : State} {p : TxenqAt} (r c e : Nat) (hp : txenqMicro p s = .next t) :
    txenqMicro p (s.withHidden r c e) = .next (t.withHidden r c e) := by
  rcases txenqMicro_next hp with ⟨b, rfl, rfl⟩ | ⟨b, h, next, rfl, he, rfl⟩ | ⟨b, h, next, rfl, he, rfl⟩ |
    ⟨b, h, next, u, rfl, hr, rfl⟩ | ⟨b, h, next, u, rfl, rfl⟩ | ⟨b, h, next, u, rfl, rfl⟩
  · rfl
  · exact if_pos he
  · exact if_neg he
  · exact txenqE3_inRange (s := s.withHidden r c e) hr
  · rfl
  · rfl

/-- Only Q3 reads a byte; where it reads the same byte, RXDEQ does the same. -/
theorem rxdeqMicro_withHidden {s t : State} {p : RxdeqAt} {r c e : Nat}
    (hread : ∀ u h, p = .q3 u h → (s.withHidden r c e).rxSlot u = s.rxSlot u) (hp : rxdeqMicro p s = .next t) :
    rxdeqMicro p (s.withHidden r c e) = .next (t.withHidden r c e) := by
  rcases rxdeqMicro_next hp with ⟨rfl, rfl⟩ | ⟨u, rfl, he, rfl⟩ | ⟨u, rfl, he, rfl⟩ | ⟨u, h, rfl, hr, rfl⟩ |
    ⟨u, h, v, rfl, rfl⟩
  · rfl
  · exact if_pos he
  · exact if_neg he
  · rw [← hread u h rfl]
    exact rxdeqQ3_inRange (s := s.withHidden r c e) hr
  · rfl

theorem execRxevt_withHidden {s t : State} {b : Byte} (r c e : Nat) (h : execRxevt b s = .next t) :
    execRxevt b (s.withHidden r c e) = .next (t.withHidden (countUp s.cfg.cw r) c e) := by
  rw [execRxevt, eventOp_eq] at h ⊢
  rcases rxevtStore_next h with ⟨hfull, rfl⟩ | ⟨hroom, hr, rfl⟩
  · exact rxevtStore_full b hfull
  · exact rxevtStore_room b hroom hr

/-- Where TXEVT sends the same byte, it does the same. -/
theorem execTxevt_withHidden {s t : State} {r c e : Nat}
    (hread : s.txTail ≠ s.txHead → (s.withHidden r c e).txSlot s.txTail = s.txSlot s.txTail)
    (h : execTxevt s = .next t) :
    execTxevt (s.withHidden r c e) = .next (t.withHidden r (countUp s.cfg.cw c) e) := by
  rw [execTxevt, eventOp_eq] at h ⊢
  rcases txevtSend_next h with ⟨hempty, rfl⟩ | ⟨hqueued, hr, rfl⟩
  · exact txevtSend_empty hempty
  · have hbyte : ((s.withHidden r c e).enterHandler .txevt).txSlot ((s.withHidden r c e).enterHandler .txevt).txTail =
        (s.enterHandler .txevt).txSlot (s.enterHandler .txevt).txTail := hread hqueued
    rw [← hbyte]
    exact txevtSend_queued (s := (s.withHidden r c e).enterHandler .txevt) hqueued hr

/-- What the next step of `s` sees of the hidden fields agrees: the byte RXDEQ reads at Q3, the byte TXEVT sends, and
the counter RDTXC or RDRXC answers. -/
structure State.SeesSame (s : State) (r c e : Nat) : Prop where
  rxByte : ∀ u h, s.fg = .busy (.rxdeq (.q3 u h)) → (s.withHidden r c e).rxSlot u = s.rxSlot u
  txByte : s.txTail ≠ s.txHead → (s.withHidden r c e).txSlot s.txTail = s.txSlot s.txTail
  rxCount : nextKind s s.input = .fgStep → s.fg = .busy .rdrxc → r = s.rxCount
  txCount : nextKind s s.input = .fgStep → s.fg = .busy .rdtxc → c = s.txCount

/-- A micro-step treats the hidden fields one by one, where it sees the same of them. -/
theorem microStep_withHidden {f : Flight} {s t : State} (h : f.microStep s = .next t) :
    ∃ ρ γ : Nat → Nat, ∀ r c e, (∀ u h, f = .rxdeq (.q3 u h) → (s.withHidden r c e).rxSlot u = s.rxSlot u) →
      (f = .rdrxc → r = s.rxCount) → (f = .rdtxc → c = s.txCount) →
        f.microStep (s.withHidden r c e) = .next (t.withHidden (ρ r) (γ c) e) := by
  cases f with
  | txenq p => exact ⟨id, id, fun r c e _ _ _ => txenqMicro_withHidden r c e h⟩
  | rxdeq p => exact ⟨id, id, fun r c e hread _ _ => rxdeqMicro_withHidden (fun u h hp => hread u h (hp ▸ rfl)) h⟩
  | rdtxc =>
    cases h
    exact ⟨id, id, fun r c e _ _ hc => by rw [hc rfl]; rfl⟩
  | rdrxc =>
    cases h
    exact ⟨id, id, fun r c e _ hr _ => by rw [hr rfl]; rfl⟩
  | setup =>
    cases h
    exact ⟨fun _ => 0, fun _ => 0, fun _ _ _ _ _ _ => rfl⟩

theorem foregroundStep_of_busy {s : State} {f : Flight} (h : s.fg = .busy f) :
    foregroundStep s = f.microStep s := by
  rw [← exec_op_of_busy h]
  simp only [foregroundStep, h]

/-- Every step treats the hidden fields one by one, and does the same to all others, where it sees the same of
them. -/
theorem step_withHidden {s t : State} (h : step s = .next t) :
    ∃ ρ γ ε : Nat → Nat, ∀ r c e, s.SeesSame r c e →
      step (s.withHidden r c e) = .next (t.withHidden (ρ r) (γ c) (ε e)) := by
  have hstep (r c e : Nat) :
      step (s.withHidden r c e) = perform (nextKind s s.input) (s.beginStep.withHidden r c e) :=
    step_eq_perform (step_next h).1
  simp only [hstep]
  rcases step_cases h with ⟨w, hk, hidle, hw⟩ | ⟨f, hk, hf, hx⟩ | ⟨b, hk, -, hx⟩ | ⟨hk, -, hx⟩ | ⟨hk, rfl⟩ |
    ⟨hk, rfl⟩ <;> rw [hk]
  · exact ⟨id, id, id, fun r c e _ => acceptWord_withHidden (s := s.beginStep) r c e hidle hw⟩
  · rw [exec_op_of_busy (s := s.beginStep) hf] at hx
    obtain ⟨ρ, γ, hm⟩ := microStep_withHidden hx
    refine ⟨ρ, γ, id, fun r c e hsee => ?_⟩
    rw [perform, foregroundStep_of_busy (s := s.beginStep.withHidden r c e) hf]
    exact hm r c e (fun u h hp => hsee.rxByte u h (hp ▸ hf)) (fun hp => hsee.rxCount hk (hp ▸ hf))
      fun hp => hsee.txCount hk (hp ▸ hf)
  · exact ⟨countUp s.cfg.cw, id, id, fun r c e _ => execRxevt_withHidden r c e hx⟩
  · exact ⟨id, countUp s.cfg.cw, id, fun r c e hsee => execTxevt_withHidden (s := s.beginStep) hsee.txByte hx⟩
  · exact ⟨fun _ => 0, fun _ => 0, (· + 1), fun _ _ _ _ => rfl⟩
  · exact ⟨id, id, id, fun _ _ _ _ => rfl⟩

/-- With its own hidden values the step is the step it was, so that each of them goes where `step_withHidden` says. -/
theorem hidden_of_step {s t : State} {ρ γ ε : Nat → Nat} (h : step s = .next t)
    (hstep : ∀ r c e, s.SeesSame r c e → step (s.withHidden r c e) = .next (t.withHidden (ρ r) (γ c) (ε e))) :
    ρ s.rxCount = t.rxCount ∧ γ s.txCount = t.txCount ∧ ε s.epoch = t.epoch := by
  have hown : step s = .next (t.withHidden (ρ s.rxCount) (γ s.txCount) (ε s.epoch)) :=
    hstep s.rxCount s.txCount s.epoch ⟨fun _ _ _ => rfl, fun _ => rfl, fun _ _ => rfl, fun _ _ => rfl⟩
  rw [h] at hown
  have ht : t = t.withHidden (ρ s.rxCount) (γ s.txCount) (ε s.epoch) := Host.Outcome.next.inj hown
  exact ⟨(congrArg State.rxCount ht).symm, (congrArg State.txCount ht).symm, (congrArg State.epoch ht).symm⟩

/-- A slot that was written reads alike whatever the free bytes are. -/
theorem Memory.byteAt_of_written {m : Memory} {i : Nat} (id : BufferId) (e e' : Nat)
    (h : (m.slot? i).isSome = true) : m.byteAt id e i = m.byteAt id e' i := by
  obtain ⟨v, hv⟩ := Option.isSome_iff_exists.1 h
  rw [byteAt_of_slot? id e hv, byteAt_of_slot? id e' hv]

/-- I5 of R205 at Q3: RXDEQ holds the tail of a buffer that is not empty. -/
theorem flightOk_q3 {s : State} {u h : Nat} (hfl : s.flightOk = true) (hf : s.fg = .busy (.rxdeq (.q3 u h))) :
    u = s.rxTail ∧ s.rxHead ≠ u := by
  simpa [State.flightOk, hf] using hfl

/-- Under the invariant every byte the next step reads lies in a live region, so it was written (10_state R43, R44). -/
theorem State.Inv.seesSame_epoch {s : State} (hinv : s.Inv) (e : Nat) : s.SeesSame s.rxCount s.txCount e := by
  obtain ⟨-, ⟨hrh, hrt, hth, htt⟩, -, -, ⟨hrx, htx⟩, -, hfl⟩ := hinv
  refine ⟨fun u h hf => ?_, fun hne => ?_, fun _ _ => rfl, fun _ _ => rfl⟩
  · obtain ⟨rfl, hne⟩ := flightOk_q3 hfl hf
    exact Memory.byteAt_of_written .rx e s.epoch (hrx _ (tail_live hrh hrt hne))
  · exact Memory.byteAt_of_written .tx e s.epoch (htx _ (tail_live hth htt hne.symm))

/-- Settles O58: under the invariant the step sees no free byte, and the counters are the same. -/
theorem unspecifiedBytesAreUnobservable : Obligations.UnspecifiedBytesAreUnobservable := by
  intro s t e hinv h
  obtain ⟨ρ, γ, ε, hstep⟩ := step_withHidden h
  obtain ⟨hρ, hγ, -⟩ := hidden_of_step h hstep
  have he := hstep s.rxCount s.txCount e (hinv.seesSame_epoch e)
  rw [hρ, hγ] at he
  exact ⟨ε e, he⟩

/-- Settles O59: a step that answers no counter sees none, and the free bytes are the same. -/
theorem countersDecideNothing : Obligations.CountersDecideNothing := by
  intro s t r c h hno
  obtain ⟨ρ, γ, ε, hstep⟩ := step_withHidden h
  obtain ⟨-, -, hε⟩ := hidden_of_step h hstep
  have hc := hstep r c s.epoch
    ⟨fun _ _ _ => rfl, fun _ => rfl, fun hk hf => absurd ⟨hk, .inr hf⟩ hno, fun hk hf => absurd ⟨hk, .inl hf⟩ hno⟩
  rw [hε] at hc
  exact ⟨ρ r, γ c, hc⟩

end Sys2Proof.Machine
end

section
/-! PROOFS. The memory contract (20_memory): buffer access with an index in range and out of range (R52, R55), which
step kind the inputs select and what the step then runs (R62, R63), and the port of a busy sequencer (R72). -/

namespace Sys2Proof.Machine

/-! ### Buffer access -/

theorem bufRead_inRange {id : BufferId} {cap epoch i : Nat} {m : Memory} (h : i < cap) :
    bufRead id cap epoch m i = .ok (m.byteAt id epoch i) := if_pos h

theorem bufWrite_inRange {cap i : Nat} {m : Memory} {v : Byte} (h : i < cap) :
    bufWrite cap m i v = .ok (m.store i v) := if_pos h

theorem bufRead_outOfRange {id : BufferId} {cap epoch i : Nat} {m : Memory} (h : cap ≤ i) :
    bufRead id cap epoch m i = .error .indexOutOfRange := if_neg (Nat.not_lt.2 h)

theorem bufWrite_outOfRange {cap i : Nat} {m : Memory} {v : Byte} (h : cap ≤ i) :
    bufWrite cap m i v = .error .indexOutOfRange := if_neg (Nat.not_lt.2 h)

theorem bufRead_store_same {id : BufferId} {cap epoch i : Nat} {m : Memory} {v : Byte} (h : i < cap) :
    bufRead id cap epoch (m.store i v) i = .ok v := by
  rw [bufRead_inRange h, Memory.byteAt_store, if_pos rfl]

/-- In range or not: a slot a store did not name is read as before, and refused as before. -/
theorem bufRead_store_other {id : BufferId} {cap epoch i j : Nat} {m : Memory} {v : Byte} (h : j ≠ i) :
    bufRead id cap epoch (m.store i v) j = bufRead id cap epoch m j := by
  rw [bufRead, bufRead, Memory.byteAt_store, if_neg h]

theorem Memory.byteAt_of_unwritten {m : Memory} {i : Nat} (id : BufferId) (epoch : Nat) (h : ∀ c ∈ m, c.1 ≠ i) :
    m.byteAt id epoch i = Config.unspecifiedByte id epoch i := by
  rw [byteAt, slot?_eq_none h, Option.getD_none]

/-- Settles O19, from the laws of `Memory.store` and `Memory.byteAt` under the range check. -/
theorem bufferWriteThenRead : Obligations.BufferWriteThenRead := by
  intro id cap epoch m i v hi
  refine ⟨⟨m.store i v, bufWrite_inRange hi, bufRead_store_same hi, fun j hj => bufRead_store_other hj⟩, ?_, ?_⟩
  · intro hunwritten
    rw [bufRead_inRange hi, Memory.byteAt_of_unwritten id epoch hunwritten]
  · exact fun j hj => ⟨bufRead_outOfRange hj, bufWrite_outOfRange hj⟩

/-! ### Where an access out of range stops an operation -/

theorem txenqE3_outOfRange {s : State} {h : Nat} (b : Byte) (next u : Nat) (hr : s.cfg.tcap ≤ h) :
    txenqE3 b h next u s = .refused .indexOutOfRange := by
  rw [txenqE3, writeTx_out (Nat.not_lt.2 hr), afterAccess]

theorem rxdeqQ3_outOfRange {s : State} {u : Nat} (h : Nat) (hr : s.cfg.rcap ≤ u) :
    rxdeqQ3 u h s = .refused .indexOutOfRange := by
  rw [rxdeqQ3, readRx_out (Nat.not_lt.2 hr), afterAccess]

theorem rxevtStore_outOfRange {s : State} (b : Byte) (hroom : inc s.cfg.rcap s.rxHead ≠ s.rxTail)
    (hr : s.cfg.rcap ≤ s.rxHead) : rxevtStore b s = .refused .indexOutOfRange := by
  simp only [rxevtStore, if_neg hroom, writeRx_out (Nat.not_lt.2 hr), afterAccess]

theorem txevtSend_outOfRange {s : State} (hqueued : s.txTail ≠ s.txHead) (hr : s.cfg.tcap ≤ s.txTail) :
    txevtSend s = .refused .indexOutOfRange := by
  simp only [txevtSend, if_neg hqueued, readTx_out (Nat.not_lt.2 hr), afterAccess]

/-- RXEVT is its register read and its store, run after entry (41_event_ops R121). -/
theorem exec_rxevt (b : Byte) (s : State) :
    exec (.rxevt b) s = rxevtStore b ((s.enterHandler (.rxevt b)).hwReadRx b) :=
  eventOp_eq (.rxevt b) (fun u => rxevtStore b (u.hwReadRx b)) s

theorem exec_txevt (s : State) : exec .txevt s = txevtSend (s.enterHandler .txevt) :=
  eventOp_eq .txevt txevtSend s

/-- Settles O20: each of the four accesses is the one its operation makes at that point. -/
theorem outOfRangeAccessIsRefused : Obligations.OutOfRangeAccessIsRefused := by
  refine ⟨fun s b h next u hf hr => ?_, fun s u h hf hr => ?_, fun s b hroom hr => ?_, fun s hqueued hr => ?_⟩
  · exact (exec_op_of_busy hf).trans (txenqE3_outOfRange b next u hr)
  · exact (exec_op_of_busy hf).trans (rxdeqQ3_outOfRange h hr)
  · exact (exec_rxevt b s).trans (rxevtStore_outOfRange b hroom hr)
  · exact (exec_txevt s).trans (txevtSend_outOfRange hqueued hr)

/-! ### What the step runs -/

/-- An idle port takes the word presented, or holds when there is none (30_encoding R90). -/
theorem nextKind_of_idle {s : State} {x : Inputs} (hr : x.rst = false) (ht : x.turn = .foreground)
    (hidle : s.fg = .idle) : nextKind s x = x.fgCmd.elim .hold .fgAccept := by
  cases hw : x.fgCmd <;> simp [nextKind, hr, ht, hidle, hw]

theorem nextKind_of_busy {s : State} {x : Inputs} {f : Flight} (hr : x.rst = false) (ht : x.turn = .foreground)
    (hf : s.fg = .busy f) : nextKind s x = .fgStep := by
  simp [nextKind, hr, ht, hf]

theorem nextKind_of_irqRx {s : State} {x : Inputs} {b : Byte} (hr : x.rst = false) (ht : x.turn = .rxEvent)
    (henabled : s.rxie = true) (hb : x.rxAvail = some b) : nextKind s x = .evRx b := by
  simp [nextKind, hr, ht, irqRx, henabled, hb]

theorem nextKind_of_irqTx {s : State} {x : Inputs} (hr : x.rst = false) (ht : x.turn = .txEvent)
    (henabled : s.txie = true) (hready : x.txReady = true) : nextKind s x = .evTx := by
  simp [nextKind, hr, ht, irqTx, henabled, hready]

theorem acceptWord_of_decode {w : OpWord} {i : Instr} (s : State) (hd : decode .foreground w = .ok i) :
    acceptWord w s = exec i s := by
  simp only [acceptWord, hd]

/-- Settles O14: the inputs select the step kind, and `perform` of that kind is `exec` of its operation. -/
theorem stepRunsDecodedOperation : Obligations.StepRunsDecodedOperation := by
  intro s hw hr
  rw [step_eq_perform hw]
  refine ⟨fun w i ht hidle hcmd hd => ?_, fun f ht hf => ?_, fun b ht henabled hb => ?_, fun ht henabled hready => ?_,
    fun ht hidle hcmd => ?_⟩
  · rw [nextKind_of_idle hr ht hidle, hcmd]
    exact acceptWord_of_decode s.beginStep hd
  · rw [nextKind_of_busy hr ht hf, exec_op_of_busy (s := s.beginStep) hf]
    exact foregroundStep_of_busy (s := s.beginStep) hf
  · rw [nextKind_of_irqRx hr ht henabled hb, perform]
  · rw [nextKind_of_irqTx hr ht henabled hready, perform]
  · rw [nextKind_of_idle hr ht hidle, hcmd]
    rfl

/-! ### The port of a busy sequencer -/

/-- Whatever the turn, the step kind of a busy sequencer is chosen without the word presented. -/
theorem nextKind_ignores_word_of_busy {s : State} {f : Flight} (hf : s.fg = .busy f) (x : Inputs)
    (c : Option OpWord) : nextKind s { x with fgCmd := c } = nextKind s x := by
  simp only [nextKind, hf]
  rfl

/-- A step is determined by the state it begins with and the step kind selected. -/
theorem step_congr {s s' : State} (hbegin : s.beginStep = s'.beginStep)
    (hkind : nextKind s s.input = nextKind s' s'.input) : step s = step s' := by
  have hcfg : s.cfg = s'.cfg := by
    rw [← State.beginStep_cfg, hbegin, State.beginStep_cfg]
  simp only [step, atomicStep, hcfg, hbegin, hkind]

/-- Settles O17: both steps take the same inputs away, and neither step kind depends on the word. -/
theorem busyPortIgnoresTheWordPresented : Obligations.BusyPortIgnoresTheWordPresented := by
  intro s x rest f w hf
  have hkind : nextKind s { x with fgCmd := some w } = nextKind s { x with fgCmd := none } :=
    (nextKind_ignores_word_of_busy hf x _).trans (nextKind_ignores_word_of_busy hf x _).symm
  exact step_congr rfl hkind

/-- Settles O18: every foreground operation goes through its port, where another operation in flight makes it wait. -/
theorem otherOperationWaitsWhileBusy : Obligations.OtherOperationWaitsWhileBusy := by
  intro s f i hf hi hne
  cases i with
  | txenq b => exact foregroundOp_other _ _ hf hne
  | rxdeq => exact foregroundOp_other _ _ hf hne
  | rdtxc => exact foregroundOp_other _ _ hf hne
  | rdrxc => exact foregroundOp_other _ _ hf hne
  | setup => exact foregroundOp_other _ _ hf hne
  | rxevt b => cases hi
  | txevt => cases hi

end Sys2Proof.Machine
end

section
/-! PROOFS. The encoding (30_encoding): decoding and encoding are inverse on each port (R95), a reserved word is
answered ILLEGAL and no other event words occur (R85, R86), the response word (R87, R88), and what a placed word runs
(R90). -/

namespace Sys2Proof

/-! ### Decoding inverts encoding -/

/-- `OW[11]` names the context that performs the operation (R81). -/
theorem contextOf_encode (i : Instr) : contextOf (encode i) = i.context := by
  have hbit : (encode i).getLsbD 11 = i.opcode.getLsbD 3 := BitVec.getLsbD_append
  rw [contextOf, hbit]
  cases i <;> simp [Instr.opcode, Instr.context]

theorem decode_encode (i : Instr) : decode i.context (encode i) = .ok i := by
  cases i with
  | txenq b =>
    have hopc : opc (encode (.txenq b)) = 0x1#4 := opc_encode _
    rw [Instr.context, decode, decodeFg, if_pos hopc, dat_encode, Instr.operand]
  | rxevt b =>
    have hopc : opc (encode (.rxevt b)) = 0x8#4 := opc_encode _
    rw [Instr.context, decode, decodeEv, if_pos hopc, dat_encode, Instr.operand]
  | rxdeq | rdtxc | rdrxc | setup | txevt => rfl

theorem encode_of_decodeFg {w : OpWord} {i : Instr} (h : decodeFg w = .ok i) : encode i = w := by
  unfold decodeFg at h
  split_ifs at h with hopc hw hw hw hw <;> cases h
  · exact ((word_eq_iff w 0x1#4 (dat w)).2 ⟨hopc, rfl⟩).symm
  all_goals exact hw.symm

theorem encode_of_decodeEv {w : OpWord} {i : Instr} (h : decodeEv w = .ok i) : encode i = w := by
  unfold decodeEv at h
  split_ifs at h with hopc hw <;> cases h
  · exact ((word_eq_iff w 0x8#4 (dat w)).2 ⟨hopc, rfl⟩).symm
  · exact hw.symm

theorem context_of_decode_event {w : OpWord} {i : Instr} (h : decode .event w = .ok i) : i.context = .event := by
  simp only [decode, decodeEv] at h
  split_ifs at h <;> cases h <;> rfl

/-- A word names an operation on a port exactly when it is the word of an operation of that port's context (R95). -/
theorem decode_eq_ok_iff {c : Context} {w : OpWord} {i : Instr} :
    decode c w = .ok i ↔ encode i = w ∧ i.context = c := by
  constructor
  · intro h
    cases c with
    | foreground => exact ⟨encode_of_decodeFg h, context_of_decode_foreground h⟩
    | event => exact ⟨encode_of_decodeEv h, context_of_decode_event h⟩
  · rintro ⟨rfl, rfl⟩
    exact decode_encode i

/-- A word that is no operation's word on a port is an error there (R85, R95). -/
theorem decode_error_of_no_instr {c : Context} {w : OpWord} (h : ∀ i : Instr, i.context = c → encode i ≠ w) :
    ∃ e, decode c w = .error e := by
  cases hd : decode c w with
  | error e => exact ⟨e, rfl⟩
  | ok i =>
    obtain ⟨henc, hctx⟩ := decode_eq_ok_iff.1 hd
    exact absurd henc (h i hctx)

/-- Settles O1: every clause follows from `decode_eq_ok_iff`, or from its consequence for a word that is none of
its port's words. -/
theorem decodeFollowsTableAndInvertsEncode : Obligations.DecodeFollowsTableAndInvertsEncode := by
  refine ⟨fun b => decode_eq_ok_iff.2 ⟨encode_txenq b, rfl⟩, decode_encode .rxdeq, decode_encode .rdtxc,
    decode_encode .rdrxc, decode_encode .setup, fun w htxenq hfixed => decode_error_of_no_instr fun i hi henc => ?_,
    fun b => decode_eq_ok_iff.2 ⟨encode_rxevt b, rfl⟩, decode_encode .txevt,
    fun w hrxevt htxevt => decode_error_of_no_instr fun i hi henc => ?_, decode_encode, fun _ _ _ => decode_eq_ok_iff.1⟩
  · subst henc
    cases i with
    | txenq b => exact htxenq b (encode_txenq b)
    | rxdeq | rdtxc | rdrxc | setup => exact hfixed (by decide)
    | rxevt b => cases hi
    | txevt => cases hi
  · subst henc
    cases i with
    | rxevt b => exact hrxevt b (encode_rxevt b)
    | txevt => exact htxevt rfl
    | _ => cases hi

namespace Machine

/-! ### Reserved words -/

/-- The words R85 and R86 reserve on the foreground port name no operation there. -/
theorem decode_foreground_of_reserved {w : OpWord}
    (h : w.toNat / 256 ∈ [0x0, 0x6, 0x7] ∨ (w.toNat / 256 ∈ [0x2, 0x3, 0x4, 0x5] ∧ w.toNat % 256 ≠ 0) ∨
      w.getLsbD 11 = true) : ∃ e, decode .foreground w = .error e := by
  refine decode_error_of_no_instr fun i hi henc => ?_
  subst henc
  rw [← opc_toNat, ← dat_toNat, opc_encode, dat_encode] at h
  rcases h with hcode | ⟨hcode, hdat⟩ | hbit
  · cases i with
    | rxevt b => cases hi
    | txevt => cases hi
    | _ => simp [Instr.opcode] at hcode
  · cases i with
    | txenq b => simp [Instr.opcode] at hcode
    | rxevt b => cases hi
    | txevt => cases hi
    | _ => exact hdat rfl
  · have hctx := contextOf_encode i
    rw [contextOf, if_pos hbit, hi] at hctx
    cases hctx

theorem acceptWord_of_decode_error {w : OpWord} {e : DecodeError} (s : State)
    (hd : decode .foreground w = .error e) : acceptWord w s = .next (s.respond w .illegal 0) := by
  simp only [acceptWord, hd]

/-! ### Event words -/

/-- No micro-step shows an event word. -/
theorem microStep_keeps_evCode {f : Flight} {s t : State} (h : f.microStep s = .next t) :
    t.out.evCode = s.out.evCode := by
  cases f with
  | txenq p =>
    rcases txenqMicro_next h with ⟨b, -, rfl⟩ | ⟨b, h, next, -, -, rfl⟩ | ⟨b, h, next, -, -, rfl⟩ |
      ⟨b, h, next, u, -, -, rfl⟩ | ⟨b, h, next, u, -, rfl⟩ | ⟨b, h, next, u, -, rfl⟩ <;> rfl
  | rxdeq p =>
    rcases rxdeqMicro_next h with ⟨-, rfl⟩ | ⟨u, -, -, rfl⟩ | ⟨u, -, -, rfl⟩ | ⟨u, h, -, -, rfl⟩ |
      ⟨u, h, v, -, rfl⟩ <;> rfl
  | rdtxc => cases h; rfl
  | rdrxc => cases h; rfl
  | setup => cases h; rfl

theorem execRxevt_evCode {s t : State} {b : Byte} (h : execRxevt b s = .next t) :
    t.out.evCode = some (encode (.rxevt b)) := by
  rw [execRxevt, eventOp_eq] at h
  rcases rxevtStore_next h with ⟨-, rfl⟩ | ⟨-, -, rfl⟩ <;> rfl

theorem execTxevt_evCode {s t : State} (h : execTxevt s = .next t) : t.out.evCode = some (encode .txevt) := by
  rw [execTxevt, eventOp_eq] at h
  rcases txevtSend_next h with ⟨-, rfl⟩ | ⟨-, -, rfl⟩ <;> rfl

/-- The event word a step shows is the word of the event operation it performed (R81, R91). -/
theorem step_evCode {s t : State} {e : OpWord} (h : step s = .next t) (he : t.out.evCode = some e) :
    (∃ b, e = encode (.rxevt b)) ∨ e = encode .txevt := by
  rcases step_cases h with ⟨w, -, hidle, hw⟩ | ⟨f, -, hf, hx⟩ | ⟨b, -, -, hx⟩ | ⟨-, -, hx⟩ | ⟨-, rfl⟩ | ⟨-, rfl⟩
  · rcases acceptWord_next (s := s.beginStep) hidle hw with ⟨f, -, rfl⟩ | ⟨_, -, rfl⟩ <;> cases he
  · rw [exec_op_of_busy (s := s.beginStep) hf] at hx
    cases (microStep_keeps_evCode hx).symm.trans he
  · exact .inl ⟨b, Option.some.inj (he.symm.trans (execRxevt_evCode hx))⟩
  · exact .inr (Option.some.inj (he.symm.trans (execTxevt_evCode hx)))
  · cases he
  · cases he

/-- Settles O3: an idle port takes the word, which decodes to an error; event words are those of `step_evCode`. -/
theorem reservedWordAnsweredIllegal : Obligations.ReservedWordAnsweredIllegal := by
  refine ⟨fun s x rest w hwf hin hr ht hcmd hidle hreserved => ?_, fun s t e h he => ?_⟩
  · obtain ⟨_, hd⟩ := decode_foreground_of_reserved hreserved
    have hx : s.input = x := by rw [State.input, hin, List.headD_cons]
    have hbegin : s.beginStep = { s with inputs := rest, out := Strobes.quiet } := by
      rw [State.beginStep, hin, List.tail_cons]
    rw [step_eq_perform hwf, hx, nextKind_of_idle hr ht hidle, hcmd, hbegin]
    refine (acceptWord_of_decode_error _ hd).trans ?_
    rw [State.respond, ← hidle]
  · exact (step_evCode h he).imp_left fun ⟨b, hb⟩ => ⟨b, hb.trans (encode_rxevt b)⟩

/-! ### The response word -/

/-- `RW = st * 2^DW + data` for data that fits its field (R87). -/
theorem responseWord_toNat {c : Config} {r : Response} (hd : r.data < 2 ^ c.dw) :
    (responseWord c r).toNat = (statusCode r.st).toNat * 2 ^ c.dw + r.data := by
  rw [responseWord, BitVec.toNat_append, BitVec.toNat_ofNat, Nat.mod_eq_of_lt hd, ← Nat.shiftLeft_add_eq_or_of_lt hd,
    Nat.shiftLeft_eq]

/-- Settles O4: the four codes of R88 in `responseWord_toNat`. -/
theorem responseWordIsStatusThenData : Obligations.ResponseWordIsStatusThenData := by
  intro c d hd
  refine ⟨?_, responseWord_toNat hd, responseWord_toNat hd, responseWord_toNat hd⟩
  calc (responseWord c ⟨.ok, d⟩).toNat = 0 * 2 ^ c.dw + d := responseWord_toNat hd
    _ = d := by rw [Nat.zero_mul, Nat.zero_add]

/-! ### The placed word -/

theorem ofNat_toNat_mod (w : OpWord) : BitVec.ofNat 12 (w.toNat % 2 ^ 12) = w := by
  rw [Nat.mod_eq_of_lt w.isLt, BitVec.ofNat_toNat, BitVec.setWidth_eq]

/-- What a foreground operation's word places: its presentation to an idle port. -/
theorem withFetchWord_foreground {i : Instr} (s : State) (hi : i.context = .foreground) :
    s.withFetchWord 12 (encode i).toNat =
      { s with fg := .idle, inputs := Script.present (encode i) :: s.inputs } := by
  have hnot (j : Instr) (hj : j.context = .event) : encode j ≠ encode i := by
    intro henc
    have hctx : j.context = i.context := by rw [← contextOf_encode, henc, contextOf_encode]
    rw [hj, hi] at hctx
    cases hctx
  obtain ⟨e, he⟩ : ∃ e, decodeEv (encode i) = .error e := decode_error_of_no_instr (c := .event) hnot
  simp only [State.withFetchWord, ofNat_toNat_mod, he]

theorem withFetchWord_rxevt (s : State) (b : Byte) :
    s.withFetchWord 12 (encode (.rxevt b)).toNat = { s with rxie := true, inputs := Script.rxevt b :: s.inputs } := by
  have hd : decodeEv (encode (.rxevt b)) = .ok (.rxevt b) := decode_encode (.rxevt b)
  simp only [State.withFetchWord, ofNat_toNat_mod, hd]

theorem withFetchWord_txevt (s : State) :
    s.withFetchWord 12 (encode .txevt).toNat = { s with txie := true, inputs := Script.txevt :: s.inputs } := rfl

/-- Settles O15: what is placed meets the premises of `stepRunsDecodedOperation` for its operation. -/
theorem placedWordRunsNext : Obligations.PlacedWordRunsNext := by
  intro s i hwf
  refine ⟨fun hi => ?_, ?_, ?_⟩
  · rw [withFetchWord_foreground s hi]
    obtain ⟨haccept, -⟩ :=
      stepRunsDecodedOperation { s with fg := .idle, inputs := Script.present (encode i) :: s.inputs } hwf rfl
    exact haccept (encode i) i rfl rfl rfl (decode_eq_ok_iff.2 ⟨rfl, hi⟩)
  · rintro b rfl
    rw [withFetchWord_rxevt]
    obtain ⟨-, -, hrx, -⟩ :=
      stepRunsDecodedOperation { s with rxie := true, inputs := Script.rxevt b :: s.inputs } hwf rfl
    exact hrx b rfl rfl rfl
  · rintro rfl
    rw [withFetchWord_txevt]
    obtain ⟨-, -, -, htx, -⟩ :=
      stepRunsDecodedOperation { s with txie := true, inputs := Script.txevt :: s.inputs } hwf rfl
    exact htx rfl rfl rfl

end Machine
end Sys2Proof
end

section
/-! PROOFS. The foreground data-path operations TXENQ and RXDEQ (40_foreground_ops): point by point (R100, R105), run
whole with no event in them (R100, R105, R106), their frames, the order of storing and publishing (R102), the armed
source behind FULL (R103), and that each commutes with the event operation of the other direction (R104, R108). -/

namespace Sys2Proof.Machine

/-! ### What a foreground operation can do -/

/-- Every foreground operation is accepted, performs its own micro-step, or waits (30_encoding R90, 20_memory R72). -/
theorem exec_foreground_next {s t : State} {i : Instr} (hi : i.context = .foreground) (h : exec i s = .next t) :
    (∃ f : Flight, s.fg = .idle ∧ f.op = i ∧ t = s.setFg (.busy f)) ∨
      (∃ f, s.fg = .busy f ∧ f.op = i ∧ f.microStep s = .next t) ∨
      (∃ f, s.fg = .busy f ∧ f.op ≠ i ∧ t = s) := by
  cases hfg : s.fg with
  | idle =>
    obtain ⟨f, hop, hf⟩ := exec_of_idle hi hfg
    exact .inl ⟨f, rfl, hop, Host.Outcome.next.inj (h.symm.trans hf)⟩
  | busy f =>
    by_cases hop : f.op = i
    · subst hop
      exact .inr (.inl ⟨f, rfl, rfl, (exec_op_of_busy hfg).symm.trans h⟩)
    · have hwait : exec i s = .next s := otherOperationWaitsWhileBusy s f i hfg hi hop
      exact .inr (.inr ⟨f, rfl, hop, Host.Outcome.next.inj (h.symm.trans hwait)⟩)

theorem Flight.exists_of_op_txenq {f : Flight} {b : Byte} (h : f.op = .txenq b) : ∃ p, f = .txenq p := by
  cases f with
  | txenq p => exact ⟨p, rfl⟩
  | rxdeq p => cases h
  | rdtxc => cases h
  | rdrxc => cases h
  | setup => cases h

theorem Flight.exists_of_op_rxdeq {f : Flight} (h : f.op = .rxdeq) : ∃ p, f = .rxdeq p := by
  cases f with
  | txenq p => cases p <;> cases h
  | rxdeq p => exact ⟨p, rfl⟩
  | rdtxc => cases h
  | rdrxc => cases h
  | setup => cases h

theorem setFg_self (s : State) : s.setFg s.fg = s := rfl

/-- What TXENQ can do (R100): move only the sequencer (acceptance, E1, E2, or waiting), answer FULL, store at E3,
publish at E4, arm and answer OK at E5. -/
theorem exec_txenq_next {s t : State} {b : Byte} (hx : exec (.txenq b) s = .next t) :
    (∃ f, t = s.setFg f) ∨
      (∃ h, s.fg = .busy (.txenq (.e2 b h s.txTail)) ∧ t = s.respond (encode (.txenq b)) .full 0) ∨
      (∃ h next u, s.fg = .busy (.txenq (.e3 b h next u)) ∧
        t = { s with txBuf := s.txBuf.store h b }.setFg (.busy (.txenq (.e4 b h next u)))) ∨
      (∃ h next u, s.fg = .busy (.txenq (.e4 b h next u)) ∧
        t = { s with txHead := next }.setFg (.busy (.txenq (.e5 b h next u)))) ∨
      (∃ h next u, s.fg = .busy (.txenq (.e5 b h next u)) ∧
        t = { s with txie := true }.respond (encode (.txenq b)) .ok 0) := by
  rcases exec_foreground_next rfl hx with ⟨f, -, -, ht⟩ | ⟨f, hf, hop, hm⟩ | ⟨f, -, -, ht⟩
  · exact .inl ⟨_, ht⟩
  · obtain ⟨p, rfl⟩ := Flight.exists_of_op_txenq hop
    rcases txenqMicro_next hm with ⟨c, rfl, ht⟩ | ⟨c, h, _, rfl, rfl, ht⟩ | ⟨c, h, next, rfl, -, ht⟩ |
      ⟨c, h, next, u, rfl, -, ht⟩ | ⟨c, h, next, u, rfl, ht⟩ | ⟨c, h, next, u, rfl, ht⟩ <;> cases hop
    · exact .inl ⟨_, ht⟩
    · exact .inr (.inl ⟨h, hf, ht⟩)
    · exact .inl ⟨_, ht⟩
    · exact .inr (.inr (.inl ⟨h, next, u, hf, ht⟩))
    · exact .inr (.inr (.inr (.inl ⟨h, next, u, hf, ht⟩)))
    · exact .inr (.inr (.inr (.inr ⟨h, next, u, hf, ht⟩)))
  · exact .inl ⟨_, ht.trans (setFg_self s).symm⟩

/-! ### TXENQ point by point -/

theorem exec_txenq_idle {s : State} (b : Byte) (hf : s.fg = .idle) :
    exec (.txenq b) s = .next (s.setFg (.busy (.txenq (.e1 b)))) := foregroundOp_idle _ _ _ hf

theorem exec_txenq_e1 {s : State} {b : Byte} (hf : s.fg = .busy (.txenq (.e1 b))) :
    exec (.txenq b) s = .next (s.setFg (.busy (.txenq (.e2 b s.txHead (inc s.cfg.tcap s.txHead))))) :=
  exec_op_of_busy hf

theorem exec_txenq_e2 {s : State} {b : Byte} {h next : Nat} (hf : s.fg = .busy (.txenq (.e2 b h next))) :
    exec (.txenq b) s =
      if next = s.txTail then .next (s.respond (encode (.txenq b)) .full 0)
      else .next (s.setFg (.busy (.txenq (.e3 b h next s.txTail)))) := exec_op_of_busy hf

theorem exec_txenq_e2_room {s : State} {b : Byte} {h next : Nat} (hf : s.fg = .busy (.txenq (.e2 b h next)))
    (hroom : next ≠ s.txTail) :
    exec (.txenq b) s = .next (s.setFg (.busy (.txenq (.e3 b h next s.txTail)))) :=
  (exec_txenq_e2 hf).trans (if_neg hroom)

theorem exec_txenq_e3 {s : State} {b : Byte} {h next u : Nat} (hf : s.fg = .busy (.txenq (.e3 b h next u)))
    (hr : h < s.cfg.tcap) :
    exec (.txenq b) s = .next ({ s with txBuf := s.txBuf.store h b }.setFg (.busy (.txenq (.e4 b h next u)))) :=
  (exec_op_of_busy hf).trans (txenqE3_inRange hr)

theorem exec_txenq_e4 {s : State} {b : Byte} {h next u : Nat} (hf : s.fg = .busy (.txenq (.e4 b h next u))) :
    exec (.txenq b) s = .next ({ s with txHead := next }.setFg (.busy (.txenq (.e5 b h next u)))) :=
  exec_op_of_busy hf

theorem exec_txenq_e5 {s : State} {b : Byte} {h next u : Nat} (hf : s.fg = .busy (.txenq (.e5 b h next u))) :
    exec (.txenq b) s = .next ({ s with txie := true }.respond (encode (.txenq b)) .ok 0) :=
  exec_op_of_busy hf

/-- Settles O22: each point is its equation above; the flags sentence is about E4's next state. -/
theorem txenqMicroSteps : Obligations.TxenqMicroSteps := by
  intro s b
  rw [← encode_txenq]
  refine ⟨exec_txenq_idle b, exec_txenq_e1, fun _ _ => exec_txenq_e2, fun _ _ _ => exec_txenq_e3,
    fun _ _ _ => exec_txenq_e4, fun _ _ _ => exec_txenq_e5, fun h next u t hf hx => ?_⟩
  obtain rfl := Host.Outcome.next.inj ((exec_txenq_e4 hf).symm.trans hx)
  refine ⟨beq_false_of_ne, fun _ hnext htail hlevel => ?_⟩
  exact txFull_iff.2 ((full_iff_level (hd := next) hnext htail).2 hlevel)

/-! ### RXDEQ point by point -/

theorem exec_rxdeq_idle {s : State} (hf : s.fg = .idle) :
    exec .rxdeq s = .next (s.setFg (.busy (.rxdeq .q1))) := foregroundOp_idle _ _ _ hf

theorem exec_rxdeq_q1 {s : State} (hf : s.fg = .busy (.rxdeq .q1)) :
    exec .rxdeq s = .next (s.setFg (.busy (.rxdeq (.q2 s.rxTail)))) := exec_op_of_busy hf

theorem exec_rxdeq_q2 {s : State} {u : Nat} (hf : s.fg = .busy (.rxdeq (.q2 u))) :
    exec .rxdeq s =
      if s.rxHead = u then .next (s.respond (encode .rxdeq) .empty 0)
      else .next (s.setFg (.busy (.rxdeq (.q3 u s.rxHead)))) := exec_op_of_busy hf

theorem exec_rxdeq_q2_empty {s : State} {u : Nat} (hf : s.fg = .busy (.rxdeq (.q2 u))) (hempty : s.rxHead = u) :
    exec .rxdeq s = .next (s.respond (encode .rxdeq) .empty 0) := (exec_rxdeq_q2 hf).trans (if_pos hempty)

theorem exec_rxdeq_q2_queued {s : State} {u : Nat} (hf : s.fg = .busy (.rxdeq (.q2 u))) (hne : s.rxHead ≠ u) :
    exec .rxdeq s = .next (s.setFg (.busy (.rxdeq (.q3 u s.rxHead)))) := (exec_rxdeq_q2 hf).trans (if_neg hne)

theorem exec_rxdeq_q3 {s : State} {u h : Nat} (hf : s.fg = .busy (.rxdeq (.q3 u h))) (hr : u < s.cfg.rcap) :
    exec .rxdeq s = .next (s.setFg (.busy (.rxdeq (.q4 u h (s.rxSlot u))))) :=
  (exec_op_of_busy hf).trans (rxdeqQ3_inRange hr)

theorem exec_rxdeq_q4 {s : State} {u h : Nat} {v : Byte} (hf : s.fg = .busy (.rxdeq (.q4 u h v))) :
    exec .rxdeq s = .next ({ s with rxTail := inc s.cfg.rcap u }.respond (encode .rxdeq) .ok (zextByte v)) :=
  exec_op_of_busy hf

/-- Advancing is one to one on the indices in range. -/
theorem inc_inj {n i j : Nat} (hi : i < n) (hj : j < n) (h : inc n i = inc n j) : i = j := by
  rw [inc_eq hi, inc_eq hj] at h
  split_ifs at h <;> omega

/-- Settles O28: each point is its equation above. With the tail moved on from a slot that is not the head's, the
head's successor is not the tail. -/
theorem rxdeqMicroSteps : Obligations.RxdeqMicroSteps := by
  intro s
  refine ⟨exec_rxdeq_idle, exec_rxdeq_q1, fun _ => exec_rxdeq_q2, fun _ _ => exec_rxdeq_q3,
    fun _ _ _ => exec_rxdeq_q4, fun u h v t hf hx => ?_⟩
  obtain rfl := Host.Outcome.next.inj ((exec_rxdeq_q4 hf).symm.trans hx)
  exact ⟨fun hlast => rxEmpty_iff.2 hlast.symm,
    fun _ hhead htail hne => beq_false_of_ne fun hfull => hne (inc_inj hhead htail hfull)⟩

/-! ### The operations with no event in them -/

/-- One more atomic step of an operation, when the first one answers a next state. -/
theorem uninterrupted_succ {s t : State} {i : Instr} (k : Nat) (h : exec i s = .next t) :
    uninterrupted i (k + 1) s = uninterrupted i k t := by
  rw [uninterrupted, h]

/-- Settles O23: acceptance and the points E1 to E5, the room found at E2 being there from the start. -/
theorem txenqStoresPublishesAndArms : Obligations.TxenqStoresPublishesAndArms := by
  intro s b hidle hr hroom
  rw [← encode_txenq]
  refine (uninterrupted_succ 5 (exec_txenq_idle b hidle)).trans ?_
  refine (uninterrupted_succ 4 (exec_txenq_e1 rfl)).trans ?_
  refine (uninterrupted_succ 3 (exec_txenq_e2_room rfl ?_)).trans ?_
  · exact hroom
  refine (uninterrupted_succ 2 (exec_txenq_e3 rfl ?_)).trans ?_
  · exact hr
  refine (uninterrupted_succ 1 (exec_txenq_e4 rfl)).trans ?_
  refine (uninterrupted_succ 0 (exec_txenq_e5 rfl)).trans ?_
  rw [hidle]
  rfl

/-- The oldest byte of a receive buffer that is not empty is the one at `rx_tail` (10_state R44). -/
theorem rxLive_pop {s : State} (hh : s.rxHead < s.cfg.rcap) (ht : s.rxTail < s.cfg.rcap) (hne : s.rxHead ≠ s.rxTail) :
    s.rxLive = s.rxSlot s.rxTail :: { s with rxTail := inc s.cfg.rcap s.rxTail }.rxLive := by
  rw [State.rxLive, liveSlots_pop hh ht hne]
  rfl

/-- Settles O29: acceptance and the points Q1 to Q4, the byte read at Q3 being the oldest of the live region. -/
theorem rxdeqReturnsOldestByte : Obligations.RxdeqReturnsOldestByte := by
  rintro s - ⟨hrh, hrt, -⟩ hidle hne
  refine ⟨_, s.rxSlot s.rxTail, ?_, rfl, rfl, rxLive_pop hrh hrt hne⟩
  refine (uninterrupted_succ 4 (exec_rxdeq_idle hidle)).trans ?_
  refine (uninterrupted_succ 3 (exec_rxdeq_q1 rfl)).trans ?_
  refine (uninterrupted_succ 2 (exec_rxdeq_q2_queued rfl ?_)).trans ?_
  · exact hne
  refine (uninterrupted_succ 1 (exec_rxdeq_q3 rfl ?_)).trans ?_
  · exact hrt
  refine (uninterrupted_succ 0 (exec_rxdeq_q4 rfl)).trans ?_
  rw [hidle]
  rfl

/-- Settles O30: acceptance, Q1, and Q2 with the two indices equal. -/
theorem rxdeqOnEmptyChangesNothing : Obligations.RxdeqOnEmptyChangesNothing := by
  intro s hidle hempty
  refine (uninterrupted_succ 2 (exec_rxdeq_idle hidle)).trans ?_
  refine (uninterrupted_succ 1 (exec_rxdeq_q1 rfl)).trans ?_
  refine (uninterrupted_succ 0 (exec_rxdeq_q2_empty rfl ?_)).trans ?_
  · exact hempty
  rw [hidle]
  rfl

/-! ### Frames -/

/-- Settles O27, by what TXENQ can do: only E3 stores, only E4 moves the head, only E5 arms. -/
theorem txenqFrame : Obligations.TxenqFrame := by
  intro s t b hx
  rcases exec_txenq_next hx with ⟨f, rfl⟩ | ⟨h, -, rfl⟩ | ⟨h, next, u, hf, rfl⟩ | ⟨h, next, u, hf, rfl⟩ |
    ⟨h, next, u, hf, rfl⟩
  · exact ⟨rfl, rfl, rfl, rfl, rfl, rfl, rfl, rfl, rfl, rfl, rfl, .inl rfl, .inl rfl, fun _ => rfl, fun _ _ => rfl⟩
  · exact ⟨rfl, rfl, rfl, rfl, rfl, rfl, rfl, rfl, rfl, rfl, rfl, .inl rfl, .inl rfl, fun _ => rfl, fun _ _ => rfl⟩
  · refine ⟨rfl, rfl, rfl, rfl, rfl, rfl, rfl, rfl, rfl, rfl, rfl, .inl rfl, .inl rfl, fun _ => rfl, fun a ha => ?_⟩
    have hne : a ≠ h := by
      rintro rfl
      simp [txenqStores, hf] at ha
    exact (Memory.byteAt_store ..).trans (if_neg hne)
  · exact ⟨rfl, rfl, rfl, rfl, rfl, rfl, rfl, rfl, rfl, rfl, rfl, .inr ⟨h, u, hf⟩, .inl rfl, fun _ => rfl,
      fun _ _ => rfl⟩
  · exact ⟨rfl, rfl, rfl, rfl, rfl, rfl, rfl, rfl, rfl, rfl, rfl, .inl rfl, .inr ⟨h, next, u, hf⟩, fun _ => rfl,
      fun _ _ => rfl⟩

/-- Every slot of both buffers reads in `t` as it does in `s`, and configuration, inputs and reset count are alike. -/
def State.KeepsBytes (s t : State) : Prop :=
  (∀ a, t.rxSlot a = s.rxSlot a) ∧ (∀ a, t.txSlot a = s.txSlot a) ∧
    t.cfg = s.cfg ∧ t.inputs = s.inputs ∧ t.epoch = s.epoch

/-- Every micro-step but those of TXENQ stores nothing. -/
theorem microStep_keepsBytes {f : Flight} {s t : State} (hf : ∀ p, f ≠ .txenq p) (h : f.microStep s = .next t) :
    s.KeepsBytes t := by
  cases f with
  | txenq p => exact absurd rfl (hf p)
  | rxdeq p =>
    rcases rxdeqMicro_next h with ⟨-, rfl⟩ | ⟨u, -, -, rfl⟩ | ⟨u, -, -, rfl⟩ | ⟨u, h, -, -, rfl⟩ | ⟨u, h, v, -, rfl⟩ <;>
      exact ⟨fun _ => rfl, fun _ => rfl, rfl, rfl, rfl⟩
  | rdtxc => cases h; exact ⟨fun _ => rfl, fun _ => rfl, rfl, rfl, rfl⟩
  | rdrxc => cases h; exact ⟨fun _ => rfl, fun _ => rfl, rfl, rfl, rfl⟩
  | setup => cases h; exact ⟨fun _ => rfl, fun _ => rfl, rfl, rfl, rfl⟩

theorem exec_foreground_keepsBytes {s t : State} {i : Instr} (hi : i.context = .foreground)
    (hne : ∀ b, i ≠ .txenq b) (hx : exec i s = .next t) : s.KeepsBytes t := by
  rcases exec_foreground_next hi hx with ⟨f, -, -, rfl⟩ | ⟨f, -, rfl, hm⟩ | ⟨f, -, -, rfl⟩
  · exact ⟨fun _ => rfl, fun _ => rfl, rfl, rfl, rfl⟩
  · refine microStep_keepsBytes ?_ hm
    rintro p rfl
    cases p <;> exact hne _ rfl
  · exact ⟨fun _ => rfl, fun _ => rfl, rfl, rfl, rfl⟩

theorem exec_txevt_keepsBytes {s t : State} (hx : exec .txevt s = .next t) : s.KeepsBytes t := by
  rw [exec_txevt] at hx
  rcases txevtSend_next hx with ⟨-, rfl⟩ | ⟨-, -, rfl⟩ <;> exact ⟨fun _ => rfl, fun _ => rfl, rfl, rfl, rfl⟩

/-- Settles O40: of the five, TXEVT only reads the transmit buffer, and no foreground operation but TXENQ stores. -/
theorem nonStoringOperationsKeepEveryByte : Obligations.NonStoringOperationsKeepEveryByte := by
  intro s t i hi hx
  simp only [List.mem_cons, List.not_mem_nil, or_false] at hi
  rcases hi with rfl | rfl | rfl | rfl | rfl
  · exact exec_foreground_keepsBytes rfl (fun _ => Instr.noConfusion) hx
  · exact exec_foreground_keepsBytes rfl (fun _ => Instr.noConfusion) hx
  · exact exec_foreground_keepsBytes rfl (fun _ => Instr.noConfusion) hx
  · exact exec_foreground_keepsBytes rfl (fun _ => Instr.noConfusion) hx
  · exact exec_txevt_keepsBytes hx

/-! ### What the invariant says of a TXENQ in flight -/

/-- I4 of R205 at E2: the locals are the own index and its successor. -/
theorem flightOk_e2 {s : State} {b : Byte} {h next : Nat} (hfl : s.flightOk = true)
    (hf : s.fg = .busy (.txenq (.e2 b h next))) : h = s.txHead ∧ next = inc s.cfg.tcap h := by
  simpa [State.flightOk, hf] using hfl

/-- I4 of R205 at E3: there is room besides. -/
theorem flightOk_e3 {s : State} {b : Byte} {h next u : Nat} (hfl : s.flightOk = true)
    (hf : s.fg = .busy (.txenq (.e3 b h next u))) :
    h = s.txHead ∧ next = inc s.cfg.tcap h ∧ next ≠ s.txTail := by
  simpa [State.flightOk, hf] using hfl

/-- I4 of R205 at E4: the byte stands in its slot besides. -/
theorem flightOk_e4 {s : State} {b : Byte} {h next u : Nat} (hfl : s.flightOk = true)
    (hf : s.fg = .busy (.txenq (.e4 b h next u))) :
    h = s.txHead ∧ next = inc s.cfg.tcap h ∧ next ≠ s.txTail ∧ s.txBuf.slot? h = some b := by
  simpa [State.flightOk, hf] using hfl

/-- A store outside the live region leaves its bytes as they were. -/
theorem txLive_store_of_not_live {s : State} {h : Nat} (b : Byte)
    (hlive : h ∉ liveSlots s.cfg.tcap s.txHead s.txTail) :
    { s with txBuf := s.txBuf.store h b }.txLive = s.txLive := by
  refine List.map_congr_left fun i hi => ?_
  have hne : i ≠ h := fun e => hlive (e ▸ hi)
  exact (Memory.byteAt_store ..).trans (if_neg hne)

/-- Publishing adds the byte in the slot at head to the end of the live region. -/
theorem txLive_push {s : State} (hh : s.txHead < s.cfg.tcap) (ht : s.txTail < s.cfg.tcap)
    (hroom : inc s.cfg.tcap s.txHead ≠ s.txTail) :
    { s with txHead := inc s.cfg.tcap s.txHead }.txLive = s.txLive ++ [s.txSlot s.txHead] := by
  refine (congrArg (List.map s.txSlot) (liveSlots_push hh ht hroom)).trans ?_
  exact List.map_append

/-- Settles O25: I4 makes the slot the one at head, which is not live until E4 publishes it. -/
theorem txenqPublishesAfterStoring : Obligations.TxenqPublishesAfterStoring := by
  intro s t b h next u hinv hx
  obtain ⟨-, ⟨-, -, hth, htt⟩, -, -, -, -, hfl⟩ := hinv
  constructor
  · intro hf
    obtain ⟨rfl, -, -⟩ := flightOk_e3 hfl hf
    have hlive := head_not_live hth htt
    obtain rfl := Host.Outcome.next.inj ((exec_txenq_e3 hf hth).symm.trans hx)
    exact ⟨hlive, rfl, txLive_store_of_not_live b hlive, (Memory.byteAt_store ..).trans (if_pos rfl)⟩
  · intro hf
    obtain ⟨rfl, rfl, hroom, hslot⟩ := flightOk_e4 hfl hf
    have hbyte : s.txSlot s.txHead = b := Memory.byteAt_of_slot? .tx s.epoch hslot
    obtain rfl := Host.Outcome.next.inj ((exec_txenq_e4 hf).symm.trans hx)
    exact ⟨head_not_live hth htt, hbyte, hbyte ▸ txLive_push hth htt hroom⟩

/-- Settles O26: with `txie = 0` the buffer would be empty (I3), and an empty buffer is not full. -/
theorem fullAnswerFindsSourceArmed : Obligations.FullAnswerFindsSourceArmed := by
  rintro s b h next ⟨hwf, ⟨-, -, hth, -⟩, -, -, -, harm, hfl⟩ hf hfull
  obtain ⟨rfl, rfl⟩ := flightOk_e2 hfl hf
  obtain ⟨-, hcap, -⟩ := (Config.wf_iff s.cfg).1 hwf
  rcases harm with harmed | hempty | hpending
  · exact harmed
  · exact absurd ⟨hempty, hfull⟩ (not_empty_and_full hcap hth)
  · rw [hf] at hpending
    cases hpending

/-! ### Commuting with the event of the other direction -/

/-- Under the invariant no micro-step of TXENQ is refused: the slot E3 stores to is in range. -/
theorem txenqMicro_answers {s : State} {p : TxenqAt} (hinv : s.Inv) (hf : s.fg = .busy (.txenq p)) :
    ∃ t, txenqMicro p s = .next t := by
  obtain ⟨-, ⟨-, -, hth, -⟩, -, -, -, -, hfl⟩ := hinv
  cases p with
  | e1 b => exact ⟨_, rfl⟩
  | e2 b h next =>
    by_cases hfull : next = s.txTail
    · exact ⟨_, if_pos hfull⟩
    · exact ⟨_, if_neg hfull⟩
  | e3 b h next u =>
    obtain ⟨rfl, -, -⟩ := flightOk_e3 hfl hf
    exact ⟨_, txenqE3_inRange hth⟩
  | e4 b h next u => exact ⟨_, rfl⟩
  | e5 b h next u => exact ⟨_, rfl⟩

/-- Under the invariant no micro-step of RXDEQ is refused: the slot Q3 reads is in range. -/
theorem rxdeqMicro_answers {s : State} {p : RxdeqAt} (hinv : s.Inv) (hf : s.fg = .busy (.rxdeq p)) :
    ∃ t, rxdeqMicro p s = .next t := by
  obtain ⟨-, ⟨-, hrt, -, -⟩, -, -, -, -, hfl⟩ := hinv
  cases p with
  | q1 => exact ⟨_, rfl⟩
  | q2 u =>
    by_cases hempty : s.rxHead = u
    · exact ⟨_, if_pos hempty⟩
    · exact ⟨_, if_neg hempty⟩
  | q3 u h =>
    obtain ⟨rfl, -⟩ := flightOk_q3 hfl hf
    exact ⟨_, rxdeqQ3_inRange hrt⟩
  | q4 u h v => exact ⟨_, rfl⟩

theorem microStep_answers {s : State} {f : Flight} (hinv : s.Inv) (hf : s.fg = .busy f) :
    ∃ t, f.microStep s = .next t := by
  cases f with
  | txenq p => exact txenqMicro_answers hinv hf
  | rxdeq p => exact rxdeqMicro_answers hinv hf
  | rdtxc => exact ⟨_, rfl⟩
  | rdrxc => exact ⟨_, rfl⟩
  | setup => exact ⟨_, rfl⟩

/-- Under the invariant no foreground operation is refused (60_exceptions R160). -/
theorem exec_foreground_answers {s : State} {i : Instr} (hi : i.context = .foreground) (hinv : s.Inv) :
    ∃ t, exec i s = .next t := by
  cases hfg : s.fg with
  | idle =>
    obtain ⟨f, -, hf⟩ := exec_of_idle hi hfg
    exact ⟨_, hf⟩
  | busy f =>
    by_cases hop : f.op = i
    · subst hop
      rw [exec_op_of_busy hfg]
      exact microStep_answers hinv hfg
    · exact ⟨s, otherOperationWaitsWhileBusy s f i hfg hi hop⟩

/-- An operation commutes with an update that leaves the sequencer alone and commutes with the operation's own
micro-steps: acceptance and waiting see nothing but the sequencer. -/
theorem exec_foreground_commutes {s t : State} {i : Instr} {g : State → State} (hi : i.context = .foreground)
    (hfg : (g s).fg = s.fg) (hset : ∀ f, g (s.setFg f) = (g s).setFg f)
    (hmicro : ∀ f : Flight, f.op = i → f.microStep s = .next t → f.microStep (g s) = .next (g t))
    (hx : exec i s = .next t) : exec i (g s) = .next (g t) := by
  cases hs : s.fg with
  | idle =>
    obtain ⟨f, hf⟩ := exec_accepts hi
    obtain rfl := Host.Outcome.next.inj ((hf s hs).symm.trans hx)
    rw [hset]
    exact hf (g s) (hfg.trans hs)
  | busy f =>
    by_cases hop : f.op = i
    · subst hop
      rw [exec_op_of_busy (hfg.trans hs)]
      exact hmicro f rfl ((exec_op_of_busy hs).symm.trans hx)
    · obtain rfl := Host.Outcome.next.inj ((otherOperationWaitsWhileBusy s f i hs hi hop).symm.trans hx)
      exact otherOperationWaitsWhileBusy (g s) f i (hfg.trans hs) hi hop

/-- The state after RXEVT `b` with its index in range (R121, R122): `exec_rxevt_inRange`. -/
def State.received (b : Byte) (s : State) : State :=
  { s with
    rxBuf := if s.rxFull then s.rxBuf else s.rxBuf.store s.rxHead b
    rxHead := if s.rxFull then s.rxHead else inc s.cfg.rcap s.rxHead
    rxCount := countUp s.cfg.cw s.rxCount
    rxIn := s.rxIn ++ [b]
    out := { s.out with rxRd := true, evCode := some (encode (.rxevt b)) } }

/-- The state after TXEVT with its index in range (R125, R126): `exec_txevt_inRange`. -/
def State.transmitted (s : State) : State :=
  { s with
    txTail := if s.txEmpty then s.txTail else inc s.cfg.tcap s.txTail
    txCount := countUp s.cfg.cw s.txCount
    txie := if s.txEmpty then false else s.txie
    txOut := if s.txEmpty then s.txOut else s.txOut ++ [s.txSlot s.txTail]
    out := { s.out with
      txWr := if s.txEmpty then s.out.txWr else some (s.txSlot s.txTail)
      evCode := some (encode .txevt) } }

theorem exec_rxevt_inRange {s : State} (b : Byte) (hr : s.rxHead < s.cfg.rcap) :
    exec (.rxevt b) s = .next (s.received b) := by
  rw [exec_rxevt]
  by_cases hfull : inc s.cfg.rcap s.rxHead = s.rxTail
  · refine (rxevtStore_full (s := (s.enterHandler _).hwReadRx b) b hfull).trans ?_
    simp only [State.received, rxFull_iff.2 hfull, if_true]
    rfl
  · refine (rxevtStore_room (s := (s.enterHandler _).hwReadRx b) b hfull hr).trans ?_
    simp only [State.received, rxFull_iff, if_neg hfull]
    rfl

theorem exec_txevt_inRange {s : State} (hr : s.txTail < s.cfg.tcap) : exec .txevt s = .next s.transmitted := by
  rw [exec_txevt]
  by_cases hempty : s.txTail = s.txHead
  · refine (txevtSend_empty (s := s.enterHandler _) hempty).trans ?_
    simp only [State.transmitted, txEmpty_iff.2 hempty.symm, if_true]
    rfl
  · refine (txevtSend_queued (s := s.enterHandler _) hempty hr).trans ?_
    simp only [State.transmitted, txEmpty_iff, if_neg (Ne.symm hempty)]
    rfl

/-- TXENQ reads and writes nothing that RXEVT does (R104). -/
theorem txenqMicro_received {s t : State} {p : TxenqAt} (b : Byte) (hp : txenqMicro p s = .next t) :
    txenqMicro p (s.received b) = .next (t.received b) := by
  rcases txenqMicro_next hp with ⟨c, rfl, rfl⟩ | ⟨c, h, next, rfl, he, rfl⟩ | ⟨c, h, next, rfl, he, rfl⟩ |
    ⟨c, h, next, u, rfl, hr, rfl⟩ | ⟨c, h, next, u, rfl, rfl⟩ | ⟨c, h, next, u, rfl, rfl⟩
  · rfl
  · exact if_pos he
  · exact if_neg he
  · exact txenqE3_inRange (s := s.received b) hr
  · rfl
  · rfl

/-- RXDEQ reads and writes nothing that TXEVT does (R108). -/
theorem rxdeqMicro_transmitted {s t : State} {p : RxdeqAt} (hp : rxdeqMicro p s = .next t) :
    rxdeqMicro p s.transmitted = .next t.transmitted := by
  rcases rxdeqMicro_next hp with ⟨rfl, rfl⟩ | ⟨u, rfl, he, rfl⟩ | ⟨u, rfl, he, rfl⟩ | ⟨u, h, rfl, hr, rfl⟩ |
    ⟨u, h, v, rfl, rfl⟩
  · rfl
  · exact if_pos he
  · exact if_neg he
  · exact rxdeqQ3_inRange (s := s.transmitted) hr
  · rfl

theorem exec_txenq_received {s t : State} {c : Byte} (b : Byte) (hx : exec (.txenq c) s = .next t) :
    exec (.txenq c) (s.received b) = .next (t.received b) := by
  refine exec_foreground_commutes (g := State.received b) rfl rfl (fun _ => rfl) (fun f hop hm => ?_) hx
  obtain ⟨p, rfl⟩ := Flight.exists_of_op_txenq hop
  exact txenqMicro_received b hm

theorem exec_rxdeq_transmitted {s t : State} (hx : exec .rxdeq s = .next t) :
    exec .rxdeq s.transmitted = .next t.transmitted := by
  refine exec_foreground_commutes (g := State.transmitted) rfl rfl (fun _ => rfl) (fun f hop hm => ?_) hx
  obtain ⟨p, rfl⟩ := Flight.exists_of_op_rxdeq hop
  exact rxdeqMicro_transmitted hm

theorem exec_rxdeq_keeps_txTail {s t : State} (hx : exec .rxdeq s = .next t) : t.txTail = s.txTail := by
  rcases exec_foreground_next rfl hx with ⟨f, -, -, rfl⟩ | ⟨f, -, hop, hm⟩ | ⟨f, -, -, rfl⟩
  · rfl
  · obtain ⟨p, rfl⟩ := Flight.exists_of_op_rxdeq hop
    obtain ⟨-, -, -, -, htail⟩ := rxdeqMicro_keeps hm
    exact htail
  · rfl

/-- Settles O42: the event's effect commutes with the micro-step, whose frame keeps the event's index in range. -/
theorem oppositeDirectionsCommute : Obligations.OppositeDirectionsCommute := by
  intro s hinv
  have ⟨_, ⟨hrh, _, _, htt⟩, _⟩ := hinv
  refine ⟨fun b c => ?_, ?_⟩
  · obtain ⟨s₂, hx⟩ := exec_foreground_answers (i := .txenq c) rfl hinv
    obtain ⟨hhead, -, -, -, -, -, -, -, hcfg, -⟩ := txenqFrame s s₂ c hx
    have hrh₂ : s₂.rxHead < s₂.cfg.rcap := by rwa [hhead, hcfg]
    exact ⟨s.received b, s₂, s₂.received b, exec_rxevt_inRange b hrh, exec_txenq_received b hx, hx,
      exec_rxevt_inRange b hrh₂⟩
  · obtain ⟨s₂, hx⟩ := exec_foreground_answers (i := .rxdeq) rfl hinv
    obtain ⟨-, -, hcfg, -⟩ := exec_foreground_keepsBytes rfl (fun _ => Instr.noConfusion) hx
    have htt₂ : s₂.txTail < s₂.cfg.tcap := by rwa [exec_rxdeq_keeps_txTail hx, hcfg]
    exact ⟨s.transmitted, s₂, s₂.transmitted, exec_txevt_inRange htt, exec_rxdeq_transmitted hx, hx,
      exec_txevt_inRange htt₂⟩

end Sys2Proof.Machine
end

section
/-! PROOFS. The event operations RXEVT and TXEVT (41_event_ops): their two branches as whole next states (R121, R122,
R125, R126), what every answer has in common (R123, R127), TXEVTs in a row, the two events in either order (R130). -/

namespace Sys2Proof.Machine

/-! ### The two branches of each event -/

/-- A counter at its largest value wraps to 0 (00_scope R16). -/
theorem countUp_max (cw : Nat) : countUp cw (2 ^ cw - 1) = 0 := by
  rw [countUp, Nat.sub_add_cancel Nat.one_le_two_pow, Nat.mod_self]

theorem received_of_full {s : State} (b : Byte) (hfull : inc s.cfg.rcap s.rxHead = s.rxTail) :
    s.received b =
      { s with
        rxCount := countUp s.cfg.cw s.rxCount
        rxIn := s.rxIn ++ [b]
        out := { s.out with rxRd := true, evCode := some (encode (.rxevt b)) } } := by
  simp only [State.received, rxFull_iff.2 hfull, if_true]

theorem received_of_room {s : State} (b : Byte) (hroom : inc s.cfg.rcap s.rxHead ≠ s.rxTail) :
    s.received b =
      { s with
        rxBuf := s.rxBuf.store s.rxHead b
        rxHead := inc s.cfg.rcap s.rxHead
        rxCount := countUp s.cfg.cw s.rxCount
        rxIn := s.rxIn ++ [b]
        out := { s.out with rxRd := true, evCode := some (encode (.rxevt b)) } } := by
  simp only [State.received, rxFull_iff, if_neg hroom]

theorem transmitted_of_empty {s : State} (hempty : s.txTail = s.txHead) :
    s.transmitted =
      { s with
        txie := false
        txCount := countUp s.cfg.cw s.txCount
        out := { s.out with evCode := some (encode .txevt) } } := by
  simp only [State.transmitted, txEmpty_iff.2 hempty.symm, if_true]

theorem transmitted_of_queued {s : State} (hqueued : s.txTail ≠ s.txHead) :
    s.transmitted =
      { s with
        txTail := inc s.cfg.tcap s.txTail
        txCount := countUp s.cfg.cw s.txCount
        txOut := s.txOut ++ [s.txSlot s.txTail]
        out := { s.out with txWr := some (s.txSlot s.txTail), evCode := some (encode .txevt) } } := by
  simp only [State.transmitted, txEmpty_iff, if_neg (Ne.symm hqueued)]

/-- On a full buffer RXEVT makes no access, so that no index need be in range. -/
theorem exec_rxevt_full {s : State} (b : Byte) (hfull : inc s.cfg.rcap s.rxHead = s.rxTail) :
    exec (.rxevt b) s = .next (s.received b) := by
  rw [exec_rxevt, received_of_full b hfull]
  exact rxevtStore_full b hfull

/-- On an empty buffer TXEVT makes no access, so that no index need be in range. -/
theorem exec_txevt_empty {s : State} (hempty : s.txTail = s.txHead) : exec .txevt s = .next s.transmitted := by
  rw [exec_txevt, transmitted_of_empty hempty]
  exact txevtSend_empty hempty

/-- Whenever RXEVT answers, `received` is its next state. -/
theorem exec_rxevt_next {s t : State} {b : Byte} (hx : exec (.rxevt b) s = .next t) : t = s.received b := by
  rcases rxevtStore_next ((exec_rxevt b s).symm.trans hx) with ⟨hfull, -⟩ | ⟨-, hr, -⟩
  · exact Host.Outcome.next.inj (hx.symm.trans (exec_rxevt_full b hfull))
  · exact Host.Outcome.next.inj (hx.symm.trans (exec_rxevt_inRange b hr))

/-- Whenever TXEVT answers, `transmitted` is its next state. -/
theorem exec_txevt_next {s t : State} (hx : exec .txevt s = .next t) : t = s.transmitted := by
  rcases txevtSend_next ((exec_txevt s).symm.trans hx) with ⟨hempty, -⟩ | ⟨-, hr, -⟩
  · exact Host.Outcome.next.inj (hx.symm.trans (exec_txevt_empty hempty))
  · exact Host.Outcome.next.inj (hx.symm.trans (exec_txevt_inRange hr))

/-! ### RXEVT -/

/-- Settles O31: the room branch; the new head is not the tail, and at level RCAP - 1 its successor is. -/
theorem rxevtStoresByte : Obligations.RxevtStoresByte := by
  intro s b hr hroom
  rw [← encode_rxevt]
  refine ⟨_, (exec_rxevt_inRange b hr).trans (congrArg _ (received_of_room b hroom)), rfl, beq_false_of_ne hroom,
    fun _ htail hlevel => ?_⟩
  have hhead : inc s.cfg.rcap s.rxHead < s.cfg.rcap := inc_lt _ (Nat.zero_lt_of_lt hr)
  exact rxFull_iff.2 ((full_iff_level hhead htail).2 hlevel)

/-- Settles O32: the full branch. -/
theorem rxevtDropsOnFull : Obligations.RxevtDropsOnFull := by
  intro s b hfull
  rw [← encode_rxevt]
  exact (exec_rxevt_full b hfull).trans (congrArg _ (received_of_full b hfull))

/-- Settles O33: the count does not look at the branch. -/
theorem rxevtAlwaysCounts : Obligations.RxevtAlwaysCounts := by
  intro s t b hx
  obtain rfl := exec_rxevt_next hx
  refine ⟨rfl, fun hmax => ?_⟩
  calc (s.received b).rxCount = countUp s.cfg.cw s.rxCount := rfl
    _ = 0 := by rw [hmax, countUp_max]

theorem received_rxSlot_other {s : State} {a : Nat} (b : Byte) (ha : rxevtStores s ≠ some a) :
    (s.received b).rxSlot a = s.rxSlot a := by
  by_cases hfull : inc s.cfg.rcap s.rxHead = s.rxTail
  · rw [received_of_full b hfull]
    rfl
  · have hne : a ≠ s.rxHead := by
      rintro rfl
      simp [rxevtStores, rxFull_iff, hfull] at ha
    rw [received_of_room b hfull]
    exact (Memory.byteAt_store ..).trans (if_neg hne)

/-- Settles O39: `received` names every field RXEVT writes, and of the slots only the one at head. -/
theorem rxevtFrame : Obligations.RxevtFrame := by
  intro s t b hx
  obtain rfl := exec_rxevt_next hx
  exact ⟨rfl, rfl, rfl, rfl, rfl, rfl, rfl, rfl, rfl, rfl, rfl, rfl, fun _ => rfl,
    fun _ => received_rxSlot_other b⟩

/-! ### TXEVT -/

/-- Settles O34: the sending branch. Advancing is one to one, so that the head's successor is not the new tail. -/
theorem txevtSendsOldestByte : Obligations.TxevtSendsOldestByte := by
  intro s hr hqueued
  exact ⟨_, (exec_txevt_inRange hr).trans (congrArg _ (transmitted_of_queued hqueued)), rfl,
    fun _ hhead => beq_false_of_ne fun hfull => hqueued (inc_inj hhead hr hfull).symm,
    fun hlast => txEmpty_iff.2 hlast.symm⟩

/-- Settles O35: the empty branch. -/
theorem txevtOnEmptyDisarms : Obligations.TxevtOnEmptyDisarms := by
  intro s hempty
  exact (exec_txevt_empty hempty).trans (congrArg _ (transmitted_of_empty hempty))

/-- Settles O36: the count does not look at the branch. -/
theorem txevtAlwaysCounts : Obligations.TxevtAlwaysCounts := by
  intro s t hx
  obtain rfl := exec_txevt_next hx
  refine ⟨rfl, fun hmax => ?_⟩
  calc s.transmitted.txCount = countUp s.cfg.cw s.txCount := rfl
    _ = 0 := by rw [hmax, countUp_max]

/-! ### TXEVTs in a row -/

theorem transmitted_txTail_lt {s : State} (ht : s.txTail < s.cfg.tcap) :
    s.transmitted.txTail < s.transmitted.cfg.tcap := by
  by_cases hempty : s.txTail = s.txHead
  · rwa [transmitted_of_empty hempty]
  · rw [transmitted_of_queued hempty]
    exact inc_lt _ (Nat.zero_lt_of_lt ht)

theorem uninterrupted_txevt {s : State} (k : Nat) (ht : s.txTail < s.cfg.tcap) :
    uninterrupted .txevt k s = .next (State.transmitted^[k] s) := by
  induction k generalizing s with
  | zero => rfl
  | succ k ih => exact (uninterrupted_succ k (exec_txevt_inRange ht)).trans (ih (transmitted_txTail_lt ht))

/-- The counter after one TXEVT or more; with none it need not be reduced yet. -/
theorem transmitted_iterate_txCount (k : Nat) (s : State) :
    (State.transmitted^[k + 1] s).txCount = (s.txCount + (k + 1)) % 2 ^ s.cfg.cw := by
  induction k generalizing s with
  | zero => rfl
  | succ k ih =>
    calc (State.transmitted^[k + 1] s.transmitted).txCount
        = ((s.txCount + 1) % 2 ^ s.cfg.cw + (k + 1)) % 2 ^ s.cfg.cw := ih s.transmitted
      _ = (s.txCount + (k + 1 + 1)) % 2 ^ s.cfg.cw := by rw [Nat.mod_add_mod, Nat.add_right_comm, Nat.add_assoc]

/-- The oldest byte of a transmit buffer that is not empty is the one at `tx_tail` (10_state R44). -/
theorem txLive_pop {s : State} (hh : s.txHead < s.cfg.tcap) (ht : s.txTail < s.cfg.tcap)
    (hqueued : s.txTail ≠ s.txHead) : s.txLive = s.txSlot s.txTail :: s.transmitted.txLive := by
  rw [State.txLive, liveSlots_pop hh ht hqueued.symm, transmitted_of_queued hqueued]
  rfl

theorem txLevel_pop {s : State} (hh : s.txHead < s.cfg.tcap) (ht : s.txTail < s.cfg.tcap)
    (hqueued : s.txTail ≠ s.txHead) : s.txLevel = s.transmitted.txLevel + 1 := by
  rw [transmitted_of_queued hqueued]
  exact level_pop hh ht hqueued.symm

/-- As many TXEVTs as bytes queued send the live region in order, empty the buffer and leave it armed as it was. -/
theorem transmitted_iterate_txLevel {s : State} (hh : s.txHead < s.cfg.tcap) (ht : s.txTail < s.cfg.tcap) :
    (State.transmitted^[s.txLevel] s).txOut = s.txOut ++ s.txLive ∧
      (State.transmitted^[s.txLevel] s).txTail = s.txHead ∧
      (State.transmitted^[s.txLevel] s).txHead = s.txHead ∧
      (State.transmitted^[s.txLevel] s).txie = s.txie := by
  generalize hk : s.txLevel = k
  induction k generalizing s with
  | zero =>
    have hempty : s.txHead = s.txTail := (level_eq_zero hh ht).1 hk
    have hlive : s.txLive = [] := by rw [State.txLive, hempty, liveSlots_self ht, List.map_nil]
    exact ⟨by rw [hlive, List.append_nil]; rfl, hempty.symm, rfl, rfl⟩
  | succ k ih =>
    have hqueued : s.txTail ≠ s.txHead := by
      intro e
      have hzero : s.txLevel = 0 := (level_eq_zero hh ht).2 e.symm
      omega
    have hlevel : s.transmitted.txLevel = k := by
      have hpop := txLevel_pop hh ht hqueued
      omega
    obtain ⟨hout, htail, hhead, hie⟩ := ih (s := s.transmitted) hh (transmitted_txTail_lt ht) hlevel
    have hsent : s.transmitted.txOut = s.txOut ++ [s.txSlot s.txTail] := by rw [transmitted_of_queued hqueued]
    have hkept : s.transmitted.txie = s.txie := by rw [transmitted_of_queued hqueued]
    refine ⟨?_, htail, hhead, hie.trans hkept⟩
    rw [Function.iterate_succ_apply, hout, hsent, txLive_pop hh ht hqueued, List.append_assoc, List.singleton_append]

/-- Settles O37: after the TXEVTs that send the live region, one more finds the buffer empty. -/
theorem drainingTakesOneMoreEvent : Obligations.DrainingTakesOneMoreEvent := by
  rintro s - ⟨-, -, hh, ht⟩
  obtain ⟨hout, htail, hhead, hie⟩ := transmitted_iterate_txLevel hh ht
  refine ⟨⟨_, uninterrupted_txevt _ ht, hout, htail, hhead, hie⟩, _, uninterrupted_txevt _ ht, ?_, ?_, ?_,
    transmitted_iterate_txCount _ s⟩
  all_goals rw [Function.iterate_succ_apply', transmitted_of_empty (htail.trans hhead.symm)]
  · exact hout
  · exact htail.trans hhead.symm

/-! ### Either order -/

/-- Settles O41: the two effects write different fields and read none that the other writes, strobes aside. -/
theorem eventsCommute : Obligations.EventsCommute := by
  rintro s b ⟨hr, -, -, ht⟩
  exact ⟨s.received b, s.transmitted, (s.received b).transmitted, s.transmitted.received b,
    exec_rxevt_inRange b hr, exec_txevt_inRange (s := s.received b) ht, exec_txevt_inRange ht,
    exec_rxevt_inRange (s := s.transmitted) b hr, rfl⟩

end Sys2Proof.Machine
end

section
/-! PROOFS. Setup and diagnostics (42_setup_diag_ops): SETUP as a whole next state and its repetition (R140, R141),
the answers of RDTXC and RDRXC (R146, R147), and that the counters they answer count the events of the ledger
(assumption 18). -/

namespace Sys2Proof.Machine

/-! ### SETUP -/

theorem encode_setup : encode .setup = 0x500#12 := rfl

/-- The state after S1 of SETUP (R140): `exec_setup_s1`. -/
def State.setUp (s : State) : State :=
  { s.clearRecord.hwConfigure with rxie := true }.respond (encode .setup) .ok 0

theorem exec_setup_idle {s : State} (hf : s.fg = .idle) : exec .setup s = .next (s.setFg (.busy .setup)) :=
  foregroundOp_idle _ _ _ hf

theorem exec_setup_s1 {s : State} (hf : s.fg = .busy .setup) : exec .setup s = .next s.setUp := exec_op_of_busy hf

/-- A buffer with two slots or more is not full with both indices at 0. -/
theorem setUp_not_full {s : State} (hw : s.cfg.wf = true) : s.setUp.rxFull = false ∧ s.setUp.txFull = false := by
  obtain ⟨hr, ht, -⟩ := (Config.wf_iff s.cfg).1 hw
  exact ⟨beq_false_of_ne (inc_ne_self hr (Nat.zero_lt_of_lt hr)),
    beq_false_of_ne (inc_ne_self ht (Nat.zero_lt_of_lt ht))⟩

/-- Settles O43: acceptance and S1, then the flags of indices that are all 0. -/
theorem setupResetsRecordAndArmsReception : Obligations.SetupResetsRecordAndArmsReception := by
  intro s
  rw [← encode_setup]
  exact ⟨exec_setup_idle, fun hf => ⟨s.setUp, exec_setup_s1 hf, rfl, rfl, rfl, setUp_not_full⟩⟩

theorem uninterrupted_setup {s : State} (hf : s.fg = .idle) : uninterrupted .setup 2 s = .next s.setUp :=
  (uninterrupted_succ 1 (exec_setup_idle hf)).trans (uninterrupted_succ 0 (exec_setup_s1 rfl))

/-- A second SETUP writes the values the first one wrote, and answers once more. -/
theorem setUp_setUp (s : State) :
    s.setUp.setUp = { s.setUp with rsp := s.setUp.rsp ++ [(encode .setup, ⟨.ok, 0⟩)] } := rfl

/-- Settles O44: SETUP leaves the sequencer idle, so that the second one is accepted too. -/
theorem setupIsIdempotent : Obligations.SetupIsIdempotent := by
  intro s hidle
  rw [← encode_setup]
  exact ⟨s.setUp, uninterrupted_setup hidle, (uninterrupted_setup rfl).trans (congrArg _ (setUp_setUp s))⟩

/-! ### The counters over the ledger -/

/-- TXEVTs since the last SETUP or reset, sending and idle (R31). -/
def Ledger.txEvents (l : Ledger) : Nat := l.txSent.length + l.txIdle

/-- RXEVTs since the last SETUP or reset, storing and dropping (R30). -/
def Ledger.rxEvents (l : Ledger) : Nat := l.rxStored.length + l.rxDropped

/-- The counters' conjuncts of I6 and I7 (R205): each counter is its number of events modulo `2^CW`. -/
structure Ledger.Counts (l : Ledger) (s : State) : Prop where
  tx : s.txCount = l.txEvents % 2 ^ s.cfg.cw
  rx : s.rxCount = l.rxEvents % 2 ^ s.cfg.cw

theorem Ledger.counts_of_balanced {l : Ledger} {s : State} (h : l.balanced s) : l.Counts s := by
  obtain ⟨-, -, htx, hrx, -, -⟩ := h
  exact ⟨htx, hrx⟩

/-- One event more on both sides (00_scope R16). -/
theorem countUp_mod (cw n : Nat) : countUp cw (n % 2 ^ cw) = (n + 1) % 2 ^ cw := Nat.mod_add_mod ..

theorem microStep_keeps_counters {f : Flight} {s t : State} (hf : f ≠ .setup) (h : f.microStep s = .next t) :
    t.txCount = s.txCount ∧ t.rxCount = s.rxCount := by
  cases f with
  | txenq p =>
    rcases txenqMicro_next h with ⟨b, -, rfl⟩ | ⟨b, h, next, -, -, rfl⟩ | ⟨b, h, next, -, -, rfl⟩ |
      ⟨b, h, next, u, -, -, rfl⟩ | ⟨b, h, next, u, -, rfl⟩ | ⟨b, h, next, u, -, rfl⟩ <;> exact ⟨rfl, rfl⟩
  | rxdeq p =>
    rcases rxdeqMicro_next h with ⟨-, rfl⟩ | ⟨u, -, -, rfl⟩ | ⟨u, -, -, rfl⟩ | ⟨u, h, -, -, rfl⟩ |
      ⟨u, h, v, -, rfl⟩ <;> exact ⟨rfl, rfl⟩
  | rdtxc => cases h; exact ⟨rfl, rfl⟩
  | rdrxc => cases h; exact ⟨rfl, rfl⟩
  | setup => exact absurd rfl hf

/-- What the ledger reads off a micro-step other than SETUP's is no event. -/
theorem Ledger.afterMicroStep_events (l : Ledger) {s : State} (t : State) {f : Flight} (hs : s.fg = .busy f)
    (hf : f ≠ .setup) :
    (l.afterMicroStep s t).txEvents = l.txEvents ∧ (l.afterMicroStep s t).rxEvents = l.rxEvents := by
  unfold Ledger.afterMicroStep
  rw [hs]
  cases f with
  | txenq p =>
    cases p with
    | e4 b h next u => exact ⟨rfl, rfl⟩
    | _ => dsimp only; split <;> exact ⟨rfl, rfl⟩
  | rxdeq p => dsimp only; split <;> exact ⟨rfl, rfl⟩
  | rdtxc => exact ⟨rfl, rfl⟩
  | rdrxc => exact ⟨rfl, rfl⟩
  | setup => exact absurd rfl hf

theorem Ledger.observe_of_fgStep {l : Ledger} {s t : State} (hk : nextKind s s.input = .fgStep) :
    l.observe s t = l.afterMicroStep s t := by rw [Ledger.observe, hk]

/-- Whichever branch RXEVT took, the ledger has one RXEVT more. -/
theorem Ledger.observe_of_evRx {l : Ledger} {s t : State} {b : Byte} (hk : nextKind s s.input = .evRx b) :
    (l.observe s t).txEvents = l.txEvents ∧ (l.observe s t).rxEvents = l.rxEvents + 1 := by
  rw [Ledger.observe, hk]
  dsimp only
  split
  · exact ⟨rfl, rfl⟩
  · refine ⟨rfl, ?_⟩
    simp only [Ledger.rxEvents, List.length_append, List.length_singleton]
    omega

/-- Whichever branch TXEVT took, the ledger has one TXEVT more. -/
theorem Ledger.observe_of_evTx {l : Ledger} {s t : State} (hk : nextKind s s.input = .evTx) :
    (l.observe s t).txEvents = l.txEvents + 1 ∧ (l.observe s t).rxEvents = l.rxEvents := by
  rw [Ledger.observe, hk]
  dsimp only
  split
  · refine ⟨?_, rfl⟩
    simp only [Ledger.txEvents, List.length_append, List.length_singleton]
    omega
  · exact ⟨rfl, rfl⟩

/-- A micro-step keeps the counters and the events counted, or, being SETUP's, puts them all back to 0. -/
theorem Ledger.Counts.afterMicroStep {l : Ledger} {s t : State} {f : Flight} (hc : l.Counts s)
    (hs : s.fg = .busy f) (h : f.microStep s.beginStep = .next t) : (l.afterMicroStep s t).Counts t := by
  by_cases hf : f = .setup
  · subst hf
    cases h
    rw [Ledger.afterMicroStep, hs]
    exact ⟨rfl, rfl⟩
  · obtain ⟨htx, hrx⟩ := microStep_keeps_counters hf h
    obtain ⟨hltx, hlrx⟩ := l.afterMicroStep_events t hs hf
    obtain ⟨hcfg, -⟩ := microStep_next h
    constructor
    · rw [htx, hltx, hcfg]
      exact hc.tx
    · rw [hrx, hlrx, hcfg]
      exact hc.rx

/-- Every step keeps the counters and the ledger's events together, by the kind of the step. -/
theorem Ledger.Counts.step {l : Ledger} {s t : State} (hc : l.Counts s) (h : step s = .next t) :
    (l.observe s t).Counts t := by
  rcases step_cases h with ⟨w, hk, hidle, hw⟩ | ⟨f, hk, hf, hx⟩ | ⟨b, hk, -, hx⟩ | ⟨hk, -, hx⟩ | ⟨hk, rfl⟩ |
    ⟨hk, rfl⟩
  · rw [Ledger.observe, hk]
    rcases acceptWord_next (s := s.beginStep) hidle hw with ⟨f, -, rfl⟩ | ⟨e, -, rfl⟩ <;> exact ⟨hc.tx, hc.rx⟩
  · rw [exec_op_of_busy (s := s.beginStep) hf] at hx
    rw [Ledger.observe_of_fgStep hk]
    exact hc.afterMicroStep hf hx
  · obtain rfl := exec_rxevt_next hx
    obtain ⟨hltx, hlrx⟩ := Ledger.observe_of_evRx (l := l) (t := s.beginStep.received b) hk
    constructor
    · rw [hltx]
      exact hc.tx
    · rw [hlrx]
      exact (congrArg (countUp s.cfg.cw) hc.rx).trans (countUp_mod _ _)
  · obtain rfl := exec_txevt_next hx
    obtain ⟨hltx, hlrx⟩ := Ledger.observe_of_evTx (l := l) (t := s.beginStep.transmitted) hk
    constructor
    · rw [hltx]
      exact (congrArg (countUp s.cfg.cw) hc.tx).trans (countUp_mod _ _)
    · rw [hlrx]
      exact hc.rx
  · rw [Ledger.observe, hk]
    exact ⟨rfl, rfl⟩
  · rw [Ledger.observe, hk]
    exact ⟨hc.tx, hc.rx⟩

/-! ### RDTXC and RDRXC -/

theorem encode_rdtxc : encode .rdtxc = 0x300#12 := rfl

theorem encode_rdrxc : encode .rdrxc = 0x400#12 := rfl

theorem exec_rdtxc_idle {s : State} (hf : s.fg = .idle) : exec .rdtxc s = .next (s.setFg (.busy .rdtxc)) :=
  foregroundOp_idle _ _ _ hf

theorem exec_rdtxc_c1 {s : State} (hf : s.fg = .busy .rdtxc) :
    exec .rdtxc s = .next (s.respond (encode .rdtxc) .ok s.txCount) := exec_op_of_busy hf

theorem exec_rdrxc_idle {s : State} (hf : s.fg = .idle) : exec .rdrxc s = .next (s.setFg (.busy .rdrxc)) :=
  foregroundOp_idle _ _ _ hf

theorem exec_rdrxc_c1 {s : State} (hf : s.fg = .busy .rdrxc) :
    exec .rdrxc s = .next (s.respond (encode .rdrxc) .ok s.rxCount) := exec_op_of_busy hf

/-- Settles O45: acceptance and C1, and the count every step keeps. No conjunct of the invariant is needed. -/
theorem rdtxcAnswersTransmitCounter : Obligations.RdtxcAnswersTransmitCounter := by
  intro s
  rw [← encode_rdtxc]
  exact ⟨exec_rdtxc_idle, exec_rdtxc_c1, fun l t _ hb h => ((Ledger.counts_of_balanced hb).step h).tx⟩

/-- Settles O46: acceptance and C1, and the count every step keeps. No conjunct of the invariant is needed. -/
theorem rdrxcAnswersReceiveCounter : Obligations.RdrxcAnswersReceiveCounter := by
  intro s
  rw [← encode_rdrxc]
  exact ⟨exec_rdrxc_idle, exec_rdrxc_c1, fun l t _ hb h => ((Ledger.counts_of_balanced hb).step h).rx⟩

end Sys2Proof.Machine
end

section
/-! PROOFS. Exceptions (60_exceptions): what a step of each kind leads to, no stop under the invariant (R160), gating
by the enables (R170), handler entry and return (R174, R175), the FULL answer (R161), and the life cycles of the two
enables (R171, R172). -/

namespace Sys2Proof.Machine

/-! ### The next state of each step kind -/

theorem perform_of_step {s t : State} {k : StepKind} (h : step s = .next t) (hk : nextKind s s.input = k) :
    perform k s.beginStep = .next t := by
  subst hk
  exact (step_next h).2

theorem step_of_fgAccept {s t : State} {w : OpWord} (h : step s = .next t) (hk : nextKind s s.input = .fgAccept w) :
    (∃ f, t = s.beginStep.setFg (.busy f)) ∨ t = s.beginStep.respond w .illegal 0 := by
  obtain ⟨-, -, hidle, -⟩ := nextKind_fgAccept hk
  rcases acceptWord_next (s := s.beginStep) hidle (perform_of_step h hk) with ⟨f, -, ht⟩ | ⟨e, -, ht⟩
  · exact .inl ⟨f, ht⟩
  · exact .inr ht

theorem step_of_evRx {s t : State} {b : Byte} (h : step s = .next t) (hk : nextKind s s.input = .evRx b) :
    t = s.beginStep.received b := exec_rxevt_next (perform_of_step h hk)

theorem step_of_evTx {s t : State} (h : step s = .next t) (hk : nextKind s s.input = .evTx) :
    t = s.beginStep.transmitted := exec_txevt_next (perform_of_step h hk)

theorem step_of_reset {s t : State} (h : step s = .next t) (hk : nextKind s s.input = .reset) :
    t = s.beginStep.hardReset := (Host.Outcome.next.inj (perform_of_step h hk)).symm

theorem step_of_hold {s t : State} (h : step s = .next t) (hk : nextKind s s.input = .hold) :
    t = s.beginStep := (Host.Outcome.next.inj (perform_of_step h hk)).symm

/-! ### No step stops under the invariant -/

/-- The invariant speaks neither of the strobes nor of the inputs. -/
theorem State.Inv.beginStep {s : State} (hinv : s.Inv) : s.beginStep.Inv := hinv

theorem acceptWord_answers {s : State} (hinv : s.Inv) (w : OpWord) : ∃ t, acceptWord w s = .next t := by
  cases hd : decode .foreground w with
  | ok i =>
    rw [acceptWord_of_decode s hd]
    exact exec_foreground_answers (context_of_decode_foreground hd) hinv
  | error e => exact ⟨_, acceptWord_of_decode_error s hd⟩

theorem foregroundStep_answers {s : State} (hinv : s.Inv) : ∃ t, foregroundStep s = .next t := by
  cases hf : s.fg with
  | idle => exact ⟨s, by simp only [foregroundStep, hf]⟩
  | busy f =>
    rw [foregroundStep_of_busy hf]
    exact microStep_answers hinv hf

/-- Whatever the step kind, the indices it accesses a buffer with are in range (I1, I4, I5 of R205). -/
theorem perform_answers {s : State} (hinv : s.Inv) (k : StepKind) : ∃ t, perform k s = .next t := by
  have ⟨_, ⟨hrh, _, _, htt⟩, _⟩ := hinv
  cases k with
  | fgAccept w => exact acceptWord_answers hinv w
  | fgStep => exact foregroundStep_answers hinv
  | evRx b => exact ⟨_, exec_rxevt_inRange b hrh⟩
  | evTx => exact ⟨_, exec_txevt_inRange htt⟩
  | reset => exact ⟨_, rfl⟩
  | hold => exact ⟨_, rfl⟩

/-- Settles O10: the configuration passes its check, and no step kind stops. -/
theorem noStepStopsUnderInvariant : Obligations.NoStepStopsUnderInvariant := by
  intro s hinv
  have ⟨hwf, _⟩ := hinv
  rw [step_eq_perform hwf]
  exact perform_answers hinv.beginStep _

/-! ### Gating -/

theorem irqRx_iff {s : State} {x : Inputs} : irqRx s x = true ↔ s.rxie = true ∧ x.rxAvail ≠ none := by
  rw [irqRx, Bool.and_eq_true, Option.isSome_iff_ne_none]

theorem irqTx_iff {s : State} {x : Inputs} : irqTx s x = true ↔ s.txie = true ∧ x.txReady = true := by
  rw [irqTx, Bool.and_eq_true]

/-- With the receive source masked or not asserted the event agent has no receive event to take. -/
theorem nextKind_of_not_irqRx {s : State} {x : Inputs} (hr : x.rst = false) (ht : x.turn = .rxEvent)
    (hoff : irqRx s x = false) : nextKind s x = .hold := by
  cases hb : x.rxAvail <;> simp [nextKind, hr, ht, hb, hoff]

theorem nextKind_of_not_irqTx {s : State} {x : Inputs} (hr : x.rst = false) (ht : x.turn = .txEvent)
    (hoff : irqTx s x = false) : nextKind s x = .hold := by
  simp [nextKind, hr, ht, hoff]

theorem step_eq_beginStep_of_hold {s : State} (hw : s.cfg.wf = true) (hk : nextKind s s.input = .hold) :
    step s = .next s.beginStep := by
  rw [step_eq_perform hw, hk, perform]

/-- Settles O16: the pins are the gating equations, an asserted and enabled source runs its handler path
(`stepRunsDecodedOperation`), and any other leaves the event agent without a step. -/
theorem eventsAreGatedByEnables : Obligations.EventsAreGatedByEnables := by
  refine ⟨fun s x => ⟨irqRx_iff, irqTx_iff⟩, fun s hw hr => ?_⟩
  obtain ⟨-, -, hrx, htx, -⟩ := stepRunsDecodedOperation s hw hr
  refine ⟨fun ht => ⟨fun b => hrx b ht, fun hoff => ?_⟩, fun ht => ⟨htx ht, fun hoff => ?_⟩⟩
  · have hirq : irqRx s s.input = false := by
      rcases hoff with hmasked | hquiet
      · simp [irqRx, hmasked]
      · simp [irqRx, hquiet]
    exact step_eq_beginStep_of_hold hw (nextKind_of_not_irqRx hr ht hirq)
  · have hirq : irqTx s s.input = false := by
      rcases hoff with hmasked | hquiet
      · simp [irqTx, hmasked]
      · simp [irqTx, hquiet]
    exact step_eq_beginStep_of_hold hw (nextKind_of_not_irqTx hr ht hirq)

/-! ### Handler entry and return -/

/-- Settles O38: both paths keep the foreground's state, entry writes only the strobes, return writes nothing. -/
theorem eventsLeaveForegroundStanding : Obligations.EventsLeaveForegroundStanding := by
  refine ⟨fun s t i hi hx => ?_, fun s i => ⟨rfl, rfl⟩⟩
  cases i with
  | rxevt b =>
    obtain ⟨-, hfg, hrsp, -⟩ := execRxevt_keeps_foreground hx
    exact ⟨hfg, hrsp⟩
  | txevt =>
    obtain ⟨-, hfg, hrsp, -⟩ := execTxevt_keeps_foreground hx
    exact ⟨hfg, hrsp⟩
  | _ => cases hi

/-! ### The FULL answer -/

theorem exec_txenq_e2_full {s : State} {b : Byte} {h next : Nat} (hf : s.fg = .busy (.txenq (.e2 b h next)))
    (hfull : next = s.txTail) : exec (.txenq b) s = .next (s.respond (encode (.txenq b)) .full 0) :=
  (exec_txenq_e2 hf).trans (if_pos hfull)

/-- Acceptance, E1, and E2 with the head's successor at the tail. -/
theorem uninterrupted_txenq_full {s : State} (b : Byte) (hidle : s.fg = .idle)
    (hfull : inc s.cfg.tcap s.txHead = s.txTail) :
    uninterrupted (.txenq b) 3 s = .next (s.respond (encode (.txenq b)) .full 0) := by
  refine (uninterrupted_succ 2 (exec_txenq_idle b hidle)).trans ?_
  refine (uninterrupted_succ 1 (exec_txenq_e1 rfl)).trans ?_
  exact uninterrupted_succ 0 (exec_txenq_e2_full rfl hfull)

/-- Of all micro-steps only E2 of TXENQ answers FULL, where its successor index is the live tail (R101). -/
theorem microStep_answers_full {f : Flight} {s t : State} {r : Response} (h : f.microStep s = .next t)
    (hquiet : s.out.fgRsp = none) (hr : t.out.fgRsp = some r) (hfull : r.st = .full) :
    ∃ b i, f = .txenq (.e2 b i s.txTail) ∧ t = s.respond (encode (.txenq b)) .full 0 := by
  have hsilent : t.out.fgRsp ≠ s.out.fgRsp := by
    rw [hr, hquiet]
    exact Option.some_ne_none r
  have hst : ∀ {w st d} {u : State}, t = u.respond w st d → st = .full := by
    rintro w st d u rfl
    cases hr
    exact hfull
  cases f with
  | txenq p =>
    rcases txenqMicro_next h with ⟨b, -, rfl⟩ | ⟨b, i, _, rfl, rfl, ht⟩ | ⟨b, i, next, -, -, rfl⟩ |
      ⟨b, i, next, u, -, -, rfl⟩ | ⟨b, i, next, u, -, rfl⟩ | ⟨b, i, next, u, -, ht⟩
    · exact absurd rfl hsilent
    · exact ⟨b, i, rfl, ht⟩
    · exact absurd rfl hsilent
    · exact absurd rfl hsilent
    · exact absurd rfl hsilent
    · cases hst ht
  | rxdeq p =>
    rcases rxdeqMicro_next h with ⟨-, rfl⟩ | ⟨u, -, -, ht⟩ | ⟨u, -, -, rfl⟩ | ⟨u, h, -, -, rfl⟩ | ⟨u, h, v, -, ht⟩
    · exact absurd rfl hsilent
    · cases hst ht
    · exact absurd rfl hsilent
    · exact absurd rfl hsilent
    · cases hst ht
  | rdtxc => cases hst (Host.Outcome.next.inj h).symm
  | rdrxc => cases hst (Host.Outcome.next.inj h).symm
  | setup => cases hst (Host.Outcome.next.inj h).symm

/-- A step that answers FULL is a micro-step: the accepting step answers nothing or ILLEGAL, the other kinds
nothing. -/
theorem fgStep_of_answers_full {s t : State} {r : Response} (h : step s = .next t) (hr : t.out.fgRsp = some r)
    (hfull : r.st = .full) : nextKind s s.input = .fgStep := by
  cases hk : nextKind s s.input with
  | fgAccept w =>
    rcases step_of_fgAccept h hk with ⟨f, rfl⟩ | rfl
    · cases hr
    · cases hr
      cases hfull
  | fgStep => rfl
  | evRx b =>
    obtain rfl := step_of_evRx h hk
    cases hr
  | evTx =>
    obtain rfl := step_of_evTx h hk
    cases hr
  | reset =>
    obtain rfl := step_of_reset h hk
    cases hr
  | hold =>
    obtain rfl := step_of_hold h hk
    cases hr

/-- Settles O24: E2 finds the head's successor at the tail; conversely I4 makes the successor that E2 compared the one
of the live head. -/
theorem txenqOnFullChangesNothing : Obligations.TxenqOnFullChangesNothing := by
  refine ⟨fun s b hidle hfull => ?_, fun s t r hfl h hr hst => ?_⟩
  · rw [← encode_txenq, uninterrupted_txenq_full b hidle hfull, State.respond, ← hidle]
  · obtain ⟨f, hf, hm⟩ := step_of_fgStep h (fgStep_of_answers_full h hr hst)
    obtain ⟨b, i, rfl, rfl⟩ := microStep_answers_full hm rfl hr hst
    obtain ⟨rfl, hnext⟩ := flightOk_e2 hfl hf
    refine ⟨b, s.txHead, s.txTail, hf, hnext.symm, ?_⟩
    rw [← encode_txenq]
    rfl

/-! ### The life cycles of the enables -/

/-- Of the micro-steps only SETUP's writes `rxie` (R172), and only SETUP's and E5 of TXENQ write `txie` (R171). -/
theorem microStep_keeps_enables {f : Flight} {s t : State} (hf : f ≠ .setup) (h : f.microStep s = .next t) :
    t.rxie = s.rxie ∧ ((∀ b i next u, f ≠ .txenq (.e5 b i next u)) → t.txie = s.txie) := by
  cases f with
  | txenq p =>
    rcases txenqMicro_next h with ⟨b, -, rfl⟩ | ⟨b, i, next, -, -, rfl⟩ | ⟨b, i, next, -, -, rfl⟩ |
      ⟨b, i, next, u, -, -, rfl⟩ | ⟨b, i, next, u, -, rfl⟩ | ⟨b, i, next, u, rfl, rfl⟩
    · exact ⟨rfl, fun _ => rfl⟩
    · exact ⟨rfl, fun _ => rfl⟩
    · exact ⟨rfl, fun _ => rfl⟩
    · exact ⟨rfl, fun _ => rfl⟩
    · exact ⟨rfl, fun _ => rfl⟩
    · exact ⟨rfl, fun harm => absurd rfl (harm b i next u)⟩
  | rxdeq p =>
    rcases rxdeqMicro_next h with ⟨-, rfl⟩ | ⟨u, -, -, rfl⟩ | ⟨u, -, -, rfl⟩ | ⟨u, h, -, -, rfl⟩ |
      ⟨u, h, v, -, rfl⟩ <;> exact ⟨rfl, fun _ => rfl⟩
  | rdtxc => cases h; exact ⟨rfl, fun _ => rfl⟩
  | rdrxc => cases h; exact ⟨rfl, fun _ => rfl⟩
  | setup => exact absurd rfl hf

/-- The micro-step of the operation known to be in flight. -/
theorem microStep_of_fgStep {s t : State} {f : Flight} (h : step s = .next t) (hk : nextKind s s.input = .fgStep)
    (hf : s.fg = .busy f) : f.microStep s.beginStep = .next t := by
  obtain ⟨g, hg, hm⟩ := step_of_fgStep h hk
  cases hf.symm.trans hg
  exact hm

theorem setup_step_enables {s t : State} (h : step s = .next t) (hk : nextKind s s.input = .fgStep)
    (hf : s.fg = .busy .setup) : t.rxie = true ∧ t.txie = false := by
  cases microStep_of_fgStep h hk hf
  exact ⟨rfl, rfl⟩

theorem txenqE5_step_arms {s t : State} {b : Byte} {i next u : Nat} (h : step s = .next t)
    (hk : nextKind s s.input = .fgStep) (hf : s.fg = .busy (.txenq (.e5 b i next u))) : t.txie = true := by
  cases microStep_of_fgStep h hk hf
  rfl

theorem fgStep_keeps_enables {s t : State} (h : step s = .next t) (hk : nextKind s s.input = .fgStep)
    (hsetup : s.fg ≠ .busy .setup) :
    t.rxie = s.rxie ∧ ((∀ b i next u, s.fg ≠ .busy (.txenq (.e5 b i next u))) → t.txie = s.txie) := by
  obtain ⟨f, hf, hm⟩ := step_of_fgStep h hk
  obtain ⟨hrxie, htxie⟩ := microStep_keeps_enables (fun e => hsetup (e ▸ hf)) hm
  exact ⟨hrxie, fun harm => htxie fun b i next u e => harm b i next u (e ▸ hf)⟩

theorem fgAccept_keeps_enables {s t : State} {w : OpWord} (h : step s = .next t)
    (hk : nextKind s s.input = .fgAccept w) : t.rxie = s.rxie ∧ t.txie = s.txie := by
  rcases step_of_fgAccept h hk with ⟨f, rfl⟩ | rfl <;> exact ⟨rfl, rfl⟩

/-- An armed TXEVT disarms exactly when it finds the buffer empty (R126). -/
theorem transmitted_disarmed_iff {s : State} (harmed : s.txie = true) :
    s.transmitted.txie = false ↔ s.txTail = s.txHead := by
  by_cases hempty : s.txTail = s.txHead
  · simp [transmitted_of_empty hempty, hempty]
  · simp [transmitted_of_queued hempty, hempty, harmed]

/-- Settles O48, row by row of R171, each row by the kind of its step. -/
theorem txieLifeCycle : Obligations.TxieLifeCycle := by
  intro s t h
  refine ⟨fun hk => ?_, fun hk => ⟨fun hf => ?_, fun b i next u => txenqE5_step_arms h hk, fun hsetup => ?_⟩,
    fun hk => ?_, fun b hk => ?_, fun w hk => ?_, fun hk => ?_⟩
  · rw [step_of_reset h hk, State.hardReset_txie]
  · exact (setup_step_enables h hk hf).2
  · exact (fgStep_keeps_enables h hk hsetup).2
  · obtain ⟨-, -, harmed, -⟩ := nextKind_evTx hk
    rw [step_of_evTx h hk]
    exact ⟨harmed, transmitted_disarmed_iff (s := s.beginStep) harmed⟩
  · rw [step_of_evRx h hk]
    rfl
  · exact (fgAccept_keeps_enables h hk).2
  · rw [step_of_hold h hk, State.beginStep_txie]

/-- Settles O49: reset and SETUP write `rxie`, and every other step keeps it, by its kind. -/
theorem rxieLifeCycle : Obligations.RxieLifeCycle := by
  intro s t h
  refine ⟨fun hk => ?_, fun hk hf => (setup_step_enables h hk hf).1, fun hreset hsetup => ?_⟩
  · rw [step_of_reset h hk, State.hardReset_rxie]
  · cases hk : nextKind s s.input with
    | fgAccept w => exact (fgAccept_keeps_enables h hk).1
    | fgStep => exact (fgStep_keeps_enables h hk fun hf => hsetup ⟨hk, hf⟩).1
    | evRx b =>
      rw [step_of_evRx h hk]
      rfl
    | evTx =>
      rw [step_of_evTx h hk]
      rfl
    | reset => exact absurd hk hreset
    | hold => rw [step_of_hold h hk, State.beginStep_rxie]

end Sys2Proof.Machine
end

section
/-! PROOFS. Reset and the invariant (70_reset_and_hazards): the reset values (R190), what the invariant asks of each
buffer and what keeps it, every step keeps it (R205 I1 to I5), and what it says of a quiescent state (R211). -/

namespace Sys2Proof.Machine

/-! ### One buffer -/

/-- What the invariant asks of one buffer with capacity `n` (R205 I1, 10_state R43, R44): `State.inv_iff`. -/
structure RingOk (n hd tl : Nat) (m : Memory) : Prop where
  head_lt : hd < n
  tail_lt : tl < n
  canonical : m.wf
  inRange : ∀ c ∈ m, c.1 < n
  written : ∀ i ∈ liveSlots n hd tl, (m.slot? i).isSome = true

theorem RingOk.store {n hd tl : Nat} {m : Memory} (h : RingOk n hd tl m) {i : Nat} (v : Byte) (hi : i < n) :
    RingOk n hd tl (m.store i v) where
  head_lt := h.head_lt
  tail_lt := h.tail_lt
  canonical := Memory.store_wf i v h.canonical
  inRange c hc := by
    rcases Memory.mem_store hc with rfl | hm
    · exact hi
    · exact h.inRange c hm
  written j hj := by
    rw [Memory.slot?_store]
    split
    · rfl
    · exact h.written j hj

/-- Head advances over a slot that has been written. -/
theorem RingOk.push {n hd tl : Nat} {m : Memory} (h : RingOk n hd tl m) (hroom : inc n hd ≠ tl)
    (hslot : (m.slot? hd).isSome = true) : RingOk n (inc n hd) tl m where
  head_lt := inc_lt hd (Nat.zero_lt_of_lt h.head_lt)
  tail_lt := h.tail_lt
  canonical := h.canonical
  inRange := h.inRange
  written i hi := by
    rw [liveSlots_push h.head_lt h.tail_lt hroom, List.mem_append, List.mem_singleton] at hi
    rcases hi with hi | rfl
    · exact h.written i hi
    · exact hslot

/-- Tail advances in a buffer that is not empty. -/
theorem RingOk.pop {n hd tl : Nat} {m : Memory} (h : RingOk n hd tl m) (hne : hd ≠ tl) :
    RingOk n hd (inc n tl) m where
  head_lt := h.head_lt
  tail_lt := inc_lt tl (Nat.zero_lt_of_lt h.tail_lt)
  canonical := h.canonical
  inRange := h.inRange
  written i hi := h.written i (by rw [liveSlots_pop h.head_lt h.tail_lt hne]; exact List.mem_cons_of_mem tl hi)

/-- An empty live region asks nothing of the slots. -/
theorem RingOk.of_empty {n : Nat} {m : Memory} (hn : 0 < n) (hm : m.wf) (hr : ∀ c ∈ m, c.1 < n) :
    RingOk n 0 0 m where
  head_lt := hn
  tail_lt := hn
  canonical := hm
  inRange := hr
  written i hi := by rw [liveSlots_self hn] at hi; cases hi

/-! ### The invariant in its parts -/

/-- The invariant, buffer by buffer: `State.inv_iff`. -/
structure State.InvParts (s : State) : Prop where
  wf : s.cfg.wf = true
  counters : s.countersOk
  rx : RingOk s.cfg.rcap s.rxHead s.rxTail s.rxBuf
  tx : RingOk s.cfg.tcap s.txHead s.txTail s.txBuf
  arm : s.armOk
  flight : s.flightOk = true

theorem State.inv_iff {s : State} : s.Inv ↔ s.InvParts := by
  constructor
  · rintro ⟨hw, ⟨hrh, hrt, hth, htt⟩, hc, ⟨hrc, htc, hrr, htr⟩, ⟨hrw, htw⟩, harm, hfl⟩
    exact ⟨hw, hc, ⟨hrh, hrt, hrc, hrr, hrw⟩, ⟨hth, htt, htc, htr, htw⟩, harm, hfl⟩
  · rintro ⟨hw, hc, ⟨hrh, hrt, hrc, hrr, hrw⟩, ⟨hth, htt, htc, htr, htw⟩, harm, hfl⟩
    exact ⟨hw, ⟨hrh, hrt, hth, htt⟩, hc, ⟨hrc, htc, hrr, htr⟩, ⟨hrw, htw⟩, harm, hfl⟩

/-- A state at its lifecycle start (R142, R190): indices and counters 0, transmit source disarmed, sequencer idle. -/
structure State.AtStart (s : State) : Prop where
  rxHead : s.rxHead = 0
  rxTail : s.rxTail = 0
  txHead : s.txHead = 0
  txTail : s.txTail = 0
  rxCount : s.rxCount = 0
  txCount : s.txCount = 0
  txie : s.txie = false
  fg : s.fg = .idle

theorem reset_atStart : State.reset.AtStart := ⟨rfl, rfl, rfl, rfl, rfl, rfl, rfl, rfl⟩

theorem hardReset_atStart (s : State) : s.hardReset.AtStart := ⟨rfl, rfl, rfl, rfl, rfl, rfl, rfl, rfl⟩

theorem setUp_atStart (s : State) : s.setUp.AtStart := ⟨rfl, rfl, rfl, rfl, rfl, rfl, rfl, rfl⟩

theorem wf_capacities_pos {c : Config} (hw : c.wf = true) : 0 < c.rcap ∧ 0 < c.tcap := by
  obtain ⟨hr, ht, -⟩ := (Config.wf_iff c).1 hw
  omega

theorem State.AtStart.invParts {s : State} (h : s.AtStart) (hw : s.cfg.wf = true) (hb : s.buffersOk) :
    s.InvParts := by
  obtain ⟨hrcap, htcap⟩ := wf_capacities_pos hw
  obtain ⟨hrc, htc, hrr, htr⟩ := hb
  exact
    { wf := hw
      counters := by rw [countersOk, h.rxCount, h.txCount]; exact ⟨Nat.two_pow_pos _, Nat.two_pow_pos _⟩
      rx := by rw [h.rxHead, h.rxTail]; exact .of_empty hrcap hrc hrr
      tx := by rw [h.txHead, h.txTail]; exact .of_empty htcap htc htr
      arm := .inr (.inl (h.txHead.trans h.txTail.symm))
      flight := by rw [flightOk, h.fg] }

/-! ### Reset -/

/-- Settles O6: `hardReset` names the values; with two slots or more indices at 0 are not full. -/
theorem hardwareResetTakesResetValues : Obligations.HardwareResetTakesResetValues := by
  intro s hw hr
  obtain ⟨hrcap, htcap, -⟩ := (Config.wf_iff s.cfg).1 hw
  have hrxFull : s.beginStep.hardReset.rxFull = false :=
    beq_false_of_ne (inc_ne_self hrcap (Nat.zero_lt_of_lt hrcap))
  have htxFull : s.beginStep.hardReset.txFull = false :=
    beq_false_of_ne (inc_ne_self htcap (Nat.zero_lt_of_lt htcap))
  exact ⟨_, step_of_rst hw hr, rfl, rfl, rfl, rfl, rfl, rfl, rfl, rfl, rfl, rfl, fun _ => rfl, fun _ => rfl,
    rfl, rfl, hrxFull, htxFull, rfl, rfl, rfl⟩

theorem no_slots_buffersOk {s : State} (hr : s.rxBuf = []) (ht : s.txBuf = []) : s.buffersOk := by
  rw [State.buffersOk, hr, ht]
  exact ⟨Memory.empty_wf, Memory.empty_wf, List.forall_mem_nil _, List.forall_mem_nil _⟩

/-- Settles O8: reset is a lifecycle start with no slot written. -/
theorem invariantHoldsAtReset : Obligations.InvariantHoldsAtReset :=
  State.inv_iff.2 (reset_atStart.invParts (by decide) (no_slots_buffersOk rfl rfl))

/-! ### Acceptance and the micro-steps keep the invariant -/

/-- The sequencer moves on, to a point whose locals agree with the registers; a TXENQ past E4 has its E5 to come. -/
theorem State.InvParts.setFg {s : State} {f : Fg} (h : s.InvParts) (hp : s.fg.armPending = false)
    (hf : (s.setFg f).flightOk = true) : (s.setFg f).InvParts where
  wf := h.wf
  counters := h.counters
  rx := h.rx
  tx := h.tx
  arm := h.arm.imp_right fun hor => .inl (hor.resolve_right (by simp [hp]))
  flight := hf

/-- An answer leaves the sequencer idle, which asks nothing of locals. -/
theorem State.InvParts.respond {s : State} (h : s.InvParts) (hp : s.fg.armPending = false) (w : OpWord) (st : Status)
    (d : Nat) : (s.respond w st d).InvParts :=
  { h.setFg (f := .idle) hp rfl with flight := rfl }

theorem acceptWord_keeps_inv {s t : State} {w : OpWord} (hinv : s.InvParts) (hidle : s.fg = .idle)
    (h : acceptWord w s = .next t) : t.InvParts := by
  have hp : s.fg.armPending = false := by rw [hidle]; rfl
  cases hd : decode .foreground w with
  | error e =>
    rw [acceptWord_of_decode_error s hd] at h
    cases h
    exact hinv.respond hp w _ _
  | ok i =>
    rw [acceptWord_of_decode s hd] at h
    cases i with
    | txenq b => cases (exec_txenq_idle b hidle).symm.trans h; exact hinv.setFg hp rfl
    | rxdeq => cases (exec_rxdeq_idle hidle).symm.trans h; exact hinv.setFg hp rfl
    | rdtxc => cases (exec_rdtxc_idle hidle).symm.trans h; exact hinv.setFg hp rfl
    | rdrxc => cases (exec_rdrxc_idle hidle).symm.trans h; exact hinv.setFg hp rfl
    | setup => cases (exec_setup_idle hidle).symm.trans h; exact hinv.setFg hp rfl
    | rxevt b => cases context_of_decode_foreground hd
    | txevt => cases context_of_decode_foreground hd

theorem txenqMicro_keeps_inv {s t : State} {p : TxenqAt} (hinv : s.InvParts) (hf : s.fg = .busy (.txenq p))
    (h : txenqMicro p s = .next t) : t.InvParts := by
  rcases txenqMicro_next h with ⟨b, rfl, rfl⟩ | ⟨b, i, next, rfl, -, rfl⟩ | ⟨b, i, next, rfl, hroom, rfl⟩ |
    ⟨b, i, next, u, rfl, hr, rfl⟩ | ⟨b, i, next, u, rfl, rfl⟩ | ⟨b, i, next, u, rfl, rfl⟩
  · exact hinv.setFg (by rw [hf]; rfl) (decide_eq_true ⟨rfl, rfl⟩)
  · exact hinv.respond (by rw [hf]; rfl) _ _ _
  · obtain ⟨hi, hnext⟩ := flightOk_e2 hinv.flight hf
    exact hinv.setFg (by rw [hf]; rfl) (decide_eq_true ⟨hi, hnext, hroom⟩)
  · obtain ⟨hi, hnext, hroom⟩ := flightOk_e3 hinv.flight hf
    have hstored : { s with txBuf := s.txBuf.store i b }.InvParts :=
      { hinv with
        tx := hinv.tx.store b hr
        flight := by rw [State.flightOk, hf]; exact decide_eq_true ⟨hi, hnext, hroom⟩ }
    refine hstored.setFg (by rw [hf]; rfl) (decide_eq_true ⟨hi, hnext, hroom, ?_⟩)
    exact Memory.slot?_store_same _ _ _
  · obtain ⟨rfl, rfl, hroom, hslot⟩ := flightOk_e4 hinv.flight hf
    exact
      { hinv with
        tx := hinv.tx.push hroom (Option.isSome_of_eq_some hslot)
        arm := .inr (.inr rfl)
        flight := decide_eq_true ⟨rfl, rfl⟩ }
  · exact { hinv with arm := .inl rfl, flight := rfl }

theorem flightOk_q2 {s : State} {u : Nat} (hfl : s.flightOk = true) (hf : s.fg = .busy (.rxdeq (.q2 u))) :
    u = s.rxTail := by
  simpa [State.flightOk, hf] using hfl

/-- I5 of R205 at Q4: RXDEQ holds the byte at the tail of a buffer that is not empty. -/
theorem flightOk_q4 {s : State} {u h : Nat} {v : Byte} (hfl : s.flightOk = true)
    (hf : s.fg = .busy (.rxdeq (.q4 u h v))) : u = s.rxTail ∧ s.rxHead ≠ u ∧ s.rxBuf.slot? u = some v := by
  simpa [State.flightOk, hf] using hfl

/-- The byte at the tail of a buffer that is not empty has been written. -/
theorem slot?_rxTail {s : State} (hinv : s.InvParts) (hne : s.rxHead ≠ s.rxTail) :
    s.rxBuf.slot? s.rxTail = some (s.rxSlot s.rxTail) := by
  obtain ⟨v, hv⟩ := Option.isSome_iff_exists.1
    (hinv.rx.written _ (tail_live hinv.rx.head_lt hinv.rx.tail_lt hne))
  rw [hv, State.rxSlot, Memory.byteAt_of_slot? _ _ hv]

theorem rxdeqMicro_keeps_inv {s t : State} {p : RxdeqAt} (hinv : s.InvParts) (hf : s.fg = .busy (.rxdeq p))
    (h : rxdeqMicro p s = .next t) : t.InvParts := by
  have hp : s.fg.armPending = false := by rw [hf]; rfl
  rcases rxdeqMicro_next h with ⟨rfl, rfl⟩ | ⟨u, rfl, -, rfl⟩ | ⟨u, rfl, hne, rfl⟩ | ⟨u, i, rfl, -, rfl⟩ |
    ⟨u, i, v, rfl, rfl⟩
  · exact hinv.setFg hp (decide_eq_true rfl)
  · exact hinv.respond hp _ _ _
  · have hu := flightOk_q2 hinv.flight hf
    exact hinv.setFg hp (decide_eq_true ⟨hu, hne⟩)
  · obtain ⟨rfl, hne⟩ := flightOk_q3 hinv.flight hf
    have hslot := slot?_rxTail hinv hne
    exact hinv.setFg hp (decide_eq_true ⟨rfl, hne, hslot⟩)
  · obtain ⟨rfl, hne, -⟩ := flightOk_q4 hinv.flight hf
    have hanswered := hinv.respond hp (encode .rxdeq) .ok (zextByte v)
    exact { hanswered with rx := hinv.rx.pop hne, flight := rfl }

theorem microStep_keeps_inv {s t : State} {f : Flight} (hinv : s.InvParts) (hf : s.fg = .busy f)
    (h : f.microStep s = .next t) : t.InvParts := by
  cases f with
  | txenq p => exact txenqMicro_keeps_inv hinv hf h
  | rxdeq p => exact rxdeqMicro_keeps_inv hinv hf h
  | rdtxc => cases h; exact hinv.respond (by rw [hf]; rfl) _ _ _
  | rdrxc => cases h; exact hinv.respond (by rw [hf]; rfl) _ _ _
  | setup =>
    cases h
    exact (setUp_atStart s).invParts hinv.wf
      ⟨hinv.rx.canonical, hinv.tx.canonical, hinv.rx.inRange, hinv.tx.inRange⟩

/-! ### The events keep the invariant -/

/-- RXEVT stores outside the live region and the new head is not the tail, so that what RXDEQ holds stays true. -/
theorem received_flightOk {s : State} (b : Byte) (hfl : s.flightOk = true)
    (hroom : inc s.cfg.rcap s.rxHead ≠ s.rxTail) : (s.received b).flightOk = true := by
  rw [received_of_room b hroom]
  cases hf : s.fg with
  | idle => rfl
  | busy f =>
    cases f with
    | txenq p =>
      rw [State.flightOk, hf] at hfl
      cases p <;> exact hfl
    | rxdeq p =>
      cases p with
      | q1 => rfl
      | q2 u =>
        have hu := flightOk_q2 hfl hf
        exact decide_eq_true hu
      | q3 u h =>
        obtain ⟨rfl, -⟩ := flightOk_q3 hfl hf
        exact decide_eq_true ⟨rfl, hroom⟩
      | q4 u h v =>
        obtain ⟨rfl, hne, hslot⟩ := flightOk_q4 hfl hf
        exact decide_eq_true ⟨rfl, hroom, (Memory.slot?_store_other b hne.symm).trans hslot⟩
    | rdtxc | rdrxc | setup => rfl

theorem received_keeps_inv {s : State} (b : Byte) (hinv : s.InvParts) : (s.received b).InvParts := by
  have hcount : (s.received b).countersOk := ⟨countUp_lt _ _, hinv.counters.2⟩
  by_cases hfull : inc s.cfg.rcap s.rxHead = s.rxTail
  · rw [received_of_full b hfull] at hcount ⊢
    exact { hinv with counters := hcount }
  · have hflight := received_flightOk b hinv.flight hfull
    rw [received_of_room b hfull] at hcount hflight ⊢
    exact
      { hinv with
        counters := hcount
        rx := (hinv.rx.store b hinv.rx.head_lt).push hfull (by rw [Memory.slot?_store_same]; rfl)
        flight := hflight }

/-- Advancing is one to one: the tail moves on from a slot that is not the head's, so that it does not meet the
successor a TXENQ in flight holds. -/
theorem transmitted_flightOk {s : State} (hinv : s.InvParts) (hqueued : s.txTail ≠ s.txHead) :
    s.transmitted.flightOk = true := by
  have hfl := hinv.flight
  have hne : inc s.cfg.tcap s.txHead ≠ inc s.cfg.tcap s.txTail :=
    fun e => hqueued (inc_inj hinv.tx.tail_lt hinv.tx.head_lt e.symm)
  rw [transmitted_of_queued hqueued]
  cases hf : s.fg with
  | idle => rfl
  | busy f =>
    cases f with
    | txenq p =>
      cases p with
      | e3 b h next u =>
        obtain ⟨rfl, rfl, -⟩ := flightOk_e3 hfl hf
        exact decide_eq_true ⟨rfl, rfl, hne⟩
      | e4 b h next u =>
        obtain ⟨rfl, rfl, -, hslot⟩ := flightOk_e4 hfl hf
        exact decide_eq_true ⟨rfl, rfl, hne, hslot⟩
      | e1 | e2 | e5 =>
        rw [State.flightOk, hf] at hfl
        exact hfl
    | rxdeq p =>
      rw [State.flightOk, hf] at hfl
      cases p <;> exact hfl
    | rdtxc | rdrxc | setup => rfl

/-- The event runs only while it is armed (R170), so that sending leaves it armed; disarming finds the buffer empty. -/
theorem transmitted_keeps_inv {s : State} (hinv : s.InvParts) (harmed : s.txie = true) : s.transmitted.InvParts := by
  have hcount : s.transmitted.countersOk := ⟨hinv.counters.1, countUp_lt _ _⟩
  by_cases hempty : s.txTail = s.txHead
  · rw [transmitted_of_empty hempty] at hcount ⊢
    exact { hinv with counters := hcount, arm := .inr (.inl hempty.symm) }
  · have hflight := transmitted_flightOk hinv hempty
    rw [transmitted_of_queued hempty] at hcount hflight ⊢
    exact
      { hinv with
        counters := hcount
        tx := hinv.tx.pop (Ne.symm hempty)
        arm := .inl harmed
        flight := hflight }

/-! ### Every step keeps the invariant -/

theorem step_keeps_invParts {s t : State} (hinv : s.beginStep.InvParts) (h : step s = .next t) : t.InvParts := by
  rcases step_cases h with ⟨w, -, hidle, hw⟩ | ⟨f, -, hf, hx⟩ | ⟨b, -, -, hx⟩ | ⟨-, harmed, hx⟩ | ⟨-, rfl⟩ | ⟨-, rfl⟩
  · exact acceptWord_keeps_inv hinv hidle hw
  · rw [exec_op_of_busy (s := s.beginStep) hf] at hx
    exact microStep_keeps_inv hinv hf hx
  · obtain rfl := exec_rxevt_next hx
    exact received_keeps_inv b hinv
  · obtain rfl := exec_txevt_next hx
    exact transmitted_keeps_inv hinv harmed
  · exact (hardReset_atStart _).invParts hinv.wf (no_slots_buffersOk rfl rfl)
  · exact hinv

/-- Settles O9, by the kind of the step. -/
theorem stepKeepsInvariant : Obligations.StepKeepsInvariant := fun _ _ hinv h =>
  State.inv_iff.2 (step_keeps_invParts (State.inv_iff.1 hinv.beginStep) h)

/-! ### Quiescence -/

/-- Settles O60: a ready source that does not interrupt is disarmed, and with the sequencer idle I3 leaves an empty
buffer. -/
theorem quiescentReadyMeansDrained : Obligations.QuiescentReadyMeansDrained := by
  rintro s hinv hquiet hready
  obtain ⟨-, -, -, -, -, harm, -⟩ := hinv
  simp only [State.quiescent, State.fgReady, irqTx, hready, Bool.and_true, Bool.and_eq_true, beq_iff_eq,
    Bool.not_eq_true'] at hquiet
  obtain ⟨⟨⟨hidle, -⟩, -⟩, hoff⟩ := hquiet
  refine ⟨txEmpty_iff.2 ?_, hoff⟩
  simpa [State.armOk, hoff, hidle, Fg.armPending] using harm

end Sys2Proof.Machine
end

section
/-! PROOFS. The ledger of an execution (70_reset_and_hazards R205 I6 and I7, R198, R193, assumption 18): what each step
adds to it is what the step moves between the buffers and the outside. -/

namespace Sys2Proof.Machine

/-! ### The bytes of a live region -/

theorem rxLive_of_empty {s : State} (h : s.rxHead = s.rxTail) (ht : s.rxTail < s.cfg.rcap) : s.rxLive = [] := by
  rw [State.rxLive, h, liveSlots_self ht, List.map_nil]

theorem txLive_of_empty {s : State} (h : s.txHead = s.txTail) (ht : s.txTail < s.cfg.tcap) : s.txLive = [] := by
  rw [State.txLive, h, liveSlots_self ht, List.map_nil]

/-- Storing at head and publishing adds the byte at the end of the live region. -/
theorem liveBytes_store_push {n hd tl : Nat} {m : Memory} (id : BufferId) (e : Nat) (v : Byte) (hh : hd < n)
    (ht : tl < n) (hroom : inc n hd ≠ tl) :
    (liveSlots n (inc n hd) tl).map ((m.store hd v).byteAt id e) =
      (liveSlots n hd tl).map (m.byteAt id e) ++ [v] := by
  have hold : (liveSlots n hd tl).map ((m.store hd v).byteAt id e) = (liveSlots n hd tl).map (m.byteAt id e) := by
    refine List.map_congr_left fun i hi => ?_
    have hne : i ≠ hd := fun h => head_not_live hh ht (h ▸ hi)
    rw [Memory.byteAt_store, if_neg hne]
  rw [liveSlots_push hh ht hroom, List.map_append, hold, List.map_singleton, Memory.byteAt_store, if_pos rfl]

theorem received_rxLive {s : State} (b : Byte) (hinv : s.InvParts) (hroom : inc s.cfg.rcap s.rxHead ≠ s.rxTail) :
    (s.received b).rxLive = s.rxLive ++ [b] := by
  rw [received_of_room b hroom]
  exact liveBytes_store_push .rx s.epoch b hinv.rx.head_lt hinv.rx.tail_lt hroom

/-! ### The ledger in its parts -/

/-- The conjuncts of `Ledger.balanced` that are not about counters: `Ledger.balanced_iff`. -/
structure Ledger.Tracks (l : Ledger) (s : State) : Prop where
  tx : l.txPub = l.txSent ++ s.txLive
  rx : l.rxStored = l.rxDeq ++ s.rxLive
  idle : l.txIdle + s.txie.toNat ≤ l.txOk
  setUp : l.setUp = s.launched

theorem Ledger.balanced_iff {l : Ledger} {s : State} : l.balanced s ↔ l.Tracks s ∧ l.Counts s := by
  constructor
  · intro h
    have hcounts := Ledger.counts_of_balanced h
    obtain ⟨htx, hrx, -, -, hidle, hsetUp⟩ := h
    exact ⟨⟨htx, hrx, hidle, hsetUp⟩, hcounts⟩
  · rintro ⟨htracks, hcounts⟩
    exact ⟨htracks.tx, htracks.rx, hcounts.tx, hcounts.rx, htracks.idle, htracks.setUp⟩

/-- At a lifecycle start nothing is queued and nothing has happened since. -/
theorem State.AtStart.tracks {s : State} (h : s.AtStart) (hw : s.cfg.wf = true) :
    { Ledger.empty with setUp := s.launched }.Tracks s := by
  obtain ⟨hrcap, htcap⟩ := wf_capacities_pos hw
  exact
    { tx := (txLive_of_empty (h.txHead.trans h.txTail.symm) (by rwa [h.txTail])).symm
      rx := (rxLive_of_empty (h.rxHead.trans h.rxTail.symm) (by rwa [h.rxTail])).symm
      idle := by rw [h.txie]; exact le_rfl
      setUp := rfl }

theorem State.AtStart.counts {s : State} (h : s.AtStart) : Ledger.empty.Counts s :=
  ⟨h.txCount.trans (Nat.zero_mod _).symm, h.rxCount.trans (Nat.zero_mod _).symm⟩

/-- Settles O51: reset is a lifecycle start without a SETUP. -/
theorem ledgerBalancedAtReset : Obligations.LedgerBalancedAtReset :=
  Ledger.balanced_iff.2 ⟨reset_atStart.tracks (by decide), reset_atStart.counts⟩

/-! ### What the ledger reads off a step -/

theorem answeredOk_of_silent {t : State} (h : t.out.fgRsp = none) : t.answeredOk = false := by
  rw [State.answeredOk, h]

/-- Of TXENQ's micro-steps the ledger sees only E4 and an answer OK. -/
theorem Ledger.afterMicroStep_txenq (l : Ledger) {s t : State} {p : TxenqAt} (hf : s.fg = .busy (.txenq p))
    (hp : ∀ b h next u, p ≠ .e4 b h next u) (hans : t.answeredOk = false) : l.afterMicroStep s t = l := by
  rw [Ledger.afterMicroStep, hf]
  cases p with
  | e4 b h next u => exact absurd rfl (hp b h next u)
  | e1 | e2 | e3 | e5 => exact if_neg (Bool.eq_false_iff.1 hans)

theorem Ledger.afterMicroStep_e4 (l : Ledger) {s : State} (t : State) {b : Byte} {h next u : Nat}
    (hf : s.fg = .busy (.txenq (.e4 b h next u))) : l.afterMicroStep s t = { l with txPub := l.txPub ++ [b] } := by
  rw [Ledger.afterMicroStep, hf]

theorem Ledger.afterMicroStep_e5 (l : Ledger) {s t : State} {b : Byte} {h next u : Nat}
    (hf : s.fg = .busy (.txenq (.e5 b h next u))) (hans : t.answeredOk = true) :
    l.afterMicroStep s t = { l with txOk := l.txOk + 1 } := by
  rw [Ledger.afterMicroStep, hf]
  exact if_pos hans

/-- Of RXDEQ's micro-steps the ledger sees only an answer OK. -/
theorem Ledger.afterMicroStep_rxdeq (l : Ledger) {s t : State} {p : RxdeqAt} (hf : s.fg = .busy (.rxdeq p))
    (hans : t.answeredOk = false) : l.afterMicroStep s t = l := by
  rw [Ledger.afterMicroStep, hf]
  exact if_neg (Bool.eq_false_iff.1 hans)

theorem ofNat_zextByte (v : Byte) : BitVec.ofNat 8 (zextByte v) = v := by
  rw [zextByte, BitVec.ofNat_toNat, BitVec.setWidth_eq]

theorem Ledger.afterMicroStep_rxdeq_ok (l : Ledger) {s t : State} {p : RxdeqAt} {v : Byte}
    (hf : s.fg = .busy (.rxdeq p)) (hr : t.out.fgRsp = some ⟨.ok, zextByte v⟩) :
    l.afterMicroStep s t = { l with rxDeq := l.rxDeq ++ [v] } := by
  have hans : t.answeredOk = true := by rw [State.answeredOk, hr]; rfl
  rw [Ledger.afterMicroStep, hf]
  refine (if_pos hans).trans ?_
  rw [hr, Option.map_some, Option.toList_some, ofNat_zextByte]

theorem Ledger.observe_dropped (l : Ledger) {s t : State} {b : Byte} (hk : nextKind s s.input = .evRx b)
    (hhead : t.rxHead = s.rxHead) : l.observe s t = { l with rxDropped := l.rxDropped + 1 } := by
  rw [Ledger.observe, hk]
  exact if_pos hhead

theorem Ledger.observe_stored (l : Ledger) {s t : State} {b : Byte} (hk : nextKind s s.input = .evRx b)
    (hhead : t.rxHead ≠ s.rxHead) : l.observe s t = { l with rxStored := l.rxStored ++ [b] } := by
  rw [Ledger.observe, hk]
  exact if_neg hhead

theorem Ledger.observe_sent (l : Ledger) {s t : State} {v : Byte} (hk : nextKind s s.input = .evTx)
    (hv : t.out.txWr = some v) : l.observe s t = { l with txSent := l.txSent ++ [v] } := by
  simp only [Ledger.observe, hk, hv]

theorem Ledger.observe_idle (l : Ledger) {s t : State} (hk : nextKind s s.input = .evTx)
    (hv : t.out.txWr = none) : l.observe s t = { l with txIdle := l.txIdle + 1 } := by
  simp only [Ledger.observe, hk, hv]

/-! ### The micro-steps -/

/-- A state with the same live bytes and enables as one that is tracked. -/
theorem Ledger.Tracks.congr {l : Ledger} {s t : State} (hb : l.Tracks s) (htx : t.txLive = s.txLive)
    (hrx : t.rxLive = s.rxLive) (htxie : t.txie = s.txie) (hrxie : t.rxie = s.rxie) : l.Tracks t where
  tx := by rw [htx]; exact hb.tx
  rx := by rw [hrx]; exact hb.rx
  idle := by rw [htxie]; exact hb.idle
  setUp := by rw [State.launched, hrxie]; exact hb.setUp

/-- E4 publishes the byte it adds to the live region (R102), and E5 pays for one idle TXEVT more (R198). -/
theorem Ledger.Tracks.txenqMicro {l : Ledger} {s t : State} {p : TxenqAt} (hb : l.Tracks s) (hinv : s.Inv)
    (hsilent : s.out.fgRsp = none) (hf : s.fg = .busy (.txenq p)) (h : txenqMicro p s = .next t) :
    (l.afterMicroStep s t).Tracks t := by
  have hunseen (hp : ∀ b h next u, p ≠ .e4 b h next u) (hans : t.answeredOk = false) (ht : l.Tracks t) :
      (l.afterMicroStep s t).Tracks t := by rwa [l.afterMicroStep_txenq hf hp hans]
  rcases txenqMicro_next h with ⟨b, rfl, rfl⟩ | ⟨b, i, next, rfl, -, rfl⟩ | ⟨b, i, next, rfl, -, rfl⟩ |
    ⟨b, i, next, u, rfl, -, rfl⟩ | ⟨b, i, next, u, rfl, rfl⟩ | ⟨b, i, next, u, rfl, rfl⟩
  · exact hunseen (fun _ _ _ _ => TxenqAt.noConfusion) (answeredOk_of_silent hsilent) (hb.congr rfl rfl rfl rfl)
  · exact hunseen (fun _ _ _ _ => TxenqAt.noConfusion) rfl (hb.congr rfl rfl rfl rfl)
  · exact hunseen (fun _ _ _ _ => TxenqAt.noConfusion) (answeredOk_of_silent hsilent) (hb.congr rfl rfl rfl rfl)
  · obtain ⟨he3, -⟩ := txenqPublishesAfterStoring s _ b i next u hinv ((exec_op_of_busy hf).trans h)
    obtain ⟨-, -, hlive, -⟩ := he3 hf
    exact hunseen (fun _ _ _ _ => TxenqAt.noConfusion) (answeredOk_of_silent hsilent) (hb.congr hlive rfl rfl rfl)
  · obtain ⟨-, he4⟩ := txenqPublishesAfterStoring s _ b i next u hinv ((exec_op_of_busy hf).trans h)
    obtain ⟨-, -, hlive⟩ := he4 hf
    rw [l.afterMicroStep_e4 _ hf]
    refine ⟨?_, hb.rx, hb.idle, hb.setUp⟩
    rw [hlive, ← List.append_assoc, ← hb.tx]
  · rw [l.afterMicroStep_e5 hf rfl]
    exact ⟨hb.tx, hb.rx, Nat.succ_le_succ (Nat.le_of_add_right_le hb.idle), hb.setUp⟩

/-- Q4 answers the byte it takes from the front of the live region (R105). -/
theorem Ledger.Tracks.rxdeqMicro {l : Ledger} {s t : State} {p : RxdeqAt} (hb : l.Tracks s) (hinv : s.InvParts)
    (hsilent : s.out.fgRsp = none) (hf : s.fg = .busy (.rxdeq p)) (h : rxdeqMicro p s = .next t) :
    (l.afterMicroStep s t).Tracks t := by
  have hunseen (hans : t.answeredOk = false) (ht : l.Tracks t) : (l.afterMicroStep s t).Tracks t := by
    rwa [l.afterMicroStep_rxdeq hf hans]
  rcases rxdeqMicro_next h with ⟨rfl, rfl⟩ | ⟨u, rfl, -, rfl⟩ | ⟨u, rfl, -, rfl⟩ | ⟨u, i, rfl, -, rfl⟩ |
    ⟨u, i, v, rfl, rfl⟩
  · exact hunseen (answeredOk_of_silent hsilent) (hb.congr rfl rfl rfl rfl)
  · exact hunseen rfl (hb.congr rfl rfl rfl rfl)
  · exact hunseen (answeredOk_of_silent hsilent) (hb.congr rfl rfl rfl rfl)
  · exact hunseen (answeredOk_of_silent hsilent) (hb.congr rfl rfl rfl rfl)
  · obtain ⟨rfl, hne, hslot⟩ := flightOk_q4 hinv.flight hf
    obtain rfl : s.rxSlot s.rxTail = v := Memory.byteAt_of_slot? .rx s.epoch hslot
    rw [l.afterMicroStep_rxdeq_ok hf rfl]
    refine ⟨hb.tx, ?_, hb.idle, hb.setUp⟩
    rw [hb.rx, rxLive_pop hinv.rx.head_lt hinv.rx.tail_lt hne, List.append_cons]
    rfl

theorem Ledger.Tracks.microStep {l : Ledger} {s t : State} {f : Flight} (hb : l.Tracks s) (hinv : s.Inv)
    (hsilent : s.out.fgRsp = none) (hf : s.fg = .busy f) (h : f.microStep s = .next t) :
    (l.afterMicroStep s t).Tracks t := by
  cases f with
  | txenq p => exact hb.txenqMicro hinv hsilent hf h
  | rxdeq p => exact hb.rxdeqMicro (State.inv_iff.1 hinv) hsilent hf h
  | rdtxc =>
    cases h
    rw [Ledger.afterMicroStep, hf]
    exact hb.congr rfl rfl rfl rfl
  | rdrxc =>
    cases h
    rw [Ledger.afterMicroStep, hf]
    exact hb.congr rfl rfl rfl rfl
  | setup =>
    cases h
    rw [Ledger.afterMicroStep, hf]
    obtain ⟨hw, -⟩ := hinv
    exact (setUp_atStart s).tracks hw

/-! ### The events -/

theorem Ledger.Tracks.received {l : Ledger} {s : State} {b : Byte} (hb : l.Tracks s) (hinv : s.beginStep.InvParts)
    (hk : nextKind s s.input = .evRx b) : (l.observe s (s.beginStep.received b)).Tracks (s.beginStep.received b) := by
  by_cases hfull : inc s.cfg.rcap s.rxHead = s.rxTail
  · have hsame := received_of_full (s := s.beginStep) b hfull
    rw [l.observe_dropped hk (by rw [hsame]; rfl), hsame]
    exact ⟨hb.tx, hb.rx, hb.idle, hb.setUp⟩
  · have hcap : 2 ≤ s.cfg.rcap := ((Config.wf_iff s.cfg).1 hinv.wf).1
    have hhead : (s.beginStep.received b).rxHead ≠ s.rxHead := by
      rw [received_of_room (s := s.beginStep) b hfull]
      exact inc_ne_self hcap hinv.rx.head_lt
    have hlive : (s.beginStep.received b).rxLive = s.rxLive ++ [b] := received_rxLive b hinv hfull
    rw [l.observe_stored hk hhead]
    refine ⟨hb.tx, ?_, hb.idle, hb.setUp⟩
    rw [hlive, ← List.append_assoc, ← hb.rx]

/-- An idle TXEVT uses up the armed source that the bound of R198 had counted. -/
theorem Ledger.Tracks.transmitted {l : Ledger} {s : State} (hb : l.Tracks s) (hinv : s.InvParts)
    (hk : nextKind s s.input = .evTx) : (l.observe s s.beginStep.transmitted).Tracks s.beginStep.transmitted := by
  by_cases hempty : s.txTail = s.txHead
  · obtain ⟨-, -, harmed, -⟩ := nextKind_evTx hk
    have hidle : l.txIdle + 1 ≤ l.txOk := by
      have hbound := hb.idle
      rwa [harmed] at hbound
    rw [transmitted_of_empty (s := s.beginStep) hempty, l.observe_idle hk rfl]
    exact ⟨hb.tx, hb.rx, hidle, hb.setUp⟩
  · have hpop : s.txLive = s.txSlot s.txTail :: s.beginStep.transmitted.txLive :=
      txLive_pop (s := s.beginStep) hinv.tx.head_lt hinv.tx.tail_lt hempty
    rw [transmitted_of_queued (s := s.beginStep) hempty] at hpop ⊢
    rw [l.observe_sent hk rfl]
    refine ⟨?_, hb.rx, hb.idle, hb.setUp⟩
    rw [hb.tx, hpop, List.append_cons]
    rfl

/-! ### Every step -/

theorem Ledger.Tracks.step {l : Ledger} {s t : State} (hb : l.Tracks s) (hinv : s.Inv) (h : step s = .next t) :
    (l.observe s t).Tracks t := by
  have hparts := State.inv_iff.1 hinv
  cases hk : nextKind s s.input with
  | fgAccept w =>
    rw [Ledger.observe, hk]
    rcases step_of_fgAccept h hk with ⟨f, rfl⟩ | rfl <;> exact hb.congr rfl rfl rfl rfl
  | fgStep =>
    obtain ⟨f, hf, hm⟩ := step_of_fgStep h hk
    rw [Ledger.observe_of_fgStep hk]
    exact (hb.congr (t := s.beginStep) rfl rfl rfl rfl).microStep hinv.beginStep rfl hf hm
  | evRx b =>
    obtain rfl := step_of_evRx h hk
    exact hb.received (State.inv_iff.1 hinv.beginStep) hk
  | evTx =>
    obtain rfl := step_of_evTx h hk
    exact hb.transmitted hparts hk
  | reset =>
    obtain rfl := step_of_reset h hk
    rw [Ledger.observe, hk]
    exact (hardReset_atStart _).tracks hparts.wf
  | hold =>
    obtain rfl := step_of_hold h hk
    rw [Ledger.observe, hk]
    exact hb.congr rfl rfl rfl rfl

/-- Settles O52: every step keeps both parts of the balance. -/
theorem ledgerStaysBalanced : Obligations.LedgerStaysBalanced := by
  intro s t l hinv hb h
  obtain ⟨htracks, hcounts⟩ := Ledger.balanced_iff.1 hb
  exact Ledger.balanced_iff.2 ⟨htracks.step hinv h, hcounts.step h⟩

end Sys2Proof.Machine
end

section
/-! PROOFS. Runs of scripts (70_reset_and_hazards R206 to R208): the steps a script's inputs select, whole operations
run from a script (assumption 14), and what fills and drains each buffer. -/

namespace Sys2Proof.Machine

/-! ### Runs -/

/-- A run goes on where a shorter run ended. -/
theorem run_add {s t : State} {j : Nat} (k : Nat) (h : core.run j s = .next t) :
    core.run (j + k) s = core.run k t := by
  induction j generalizing s with
  | zero => cases h; rw [Nat.zero_add]
  | succ j ih =>
    rw [Nat.add_right_comm]
    simp only [Host.Core.run] at h ⊢
    split at h
    · next hs => exact ih h
    · cases h
    · cases h

theorem input_of_cons {s : State} {x : Inputs} {xs : List Inputs} (h : s.inputs = x :: xs) : s.input = x := by
  rw [State.input, h, List.headD_cons]

/-- The state with other inputs to come. -/
def State.offered (xs : List Inputs) (s : State) : State := { s with inputs := xs }

/-- The state a step of a script begins with: its inputs are taken and no strobe is active. -/
def State.begun (xs : List Inputs) (s : State) : State := { s with out := Strobes.quiet, inputs := xs }

/-- The state with an operation in flight, no strobe active, and `xs` to come. -/
def State.inFlight (f : Flight) (xs : List Inputs) (s : State) : State :=
  { s with fg := .busy f, out := Strobes.quiet, inputs := xs }

variable {s t : State} {xs : List Inputs} {k : Nat} {r : Host.Outcome State Fault Refusal}

/-- The master presents an operation's word to an idle port. -/
theorem run_present {i : Instr} {f : Flight} (hw : s.cfg.wf = true) (hi : i.context = .foreground)
    (hidle : s.fg = .idle) (hx : ∀ u : State, u.fg = .idle → exec i u = .next (u.setFg (.busy f)))
    (hrun : core.run k (s.inFlight f xs) = r) :
    core.run (k + 1) (s.offered (Script.present (encode i) :: xs)) = r := by
  obtain ⟨haccept, -⟩ := stepRunsDecodedOperation (s.offered (Script.present (encode i) :: xs)) hw rfl
  have hstep := haccept (encode i) i rfl hidle rfl (decode_eq_ok_iff.2 ⟨rfl, hi⟩)
  exact (run_succ k (hstep.trans (hx _ hidle))).trans hrun

theorem step_inFlight {f : Flight} (hw : s.cfg.wf = true) :
    step (s.inFlight f (Script.microStep :: xs)) = f.microStep (s.inFlight f xs) := by
  obtain ⟨-, hmicro, -⟩ := stepRunsDecodedOperation (s.inFlight f (Script.microStep :: xs)) hw rfl
  exact (hmicro f rfl rfl).trans (exec_op_of_busy rfl)

/-- The foreground agent moves an operation in flight on to its next point. -/
theorem run_microStep {f g : Flight} (hw : s.cfg.wf = true)
    (hx : f.microStep (s.inFlight f xs) = .next (t.inFlight g xs)) (hrun : core.run k (t.inFlight g xs) = r) :
    core.run (k + 1) (s.inFlight f (Script.microStep :: xs)) = r :=
  (run_succ k ((step_inFlight hw).trans hx)).trans hrun

/-- The foreground agent moves an operation in flight to its answer. -/
theorem run_answer {f : Flight} (hw : s.cfg.wf = true) (hx : f.microStep (s.inFlight f xs) = .next t)
    (hrun : core.run k t = r) : core.run (k + 1) (s.inFlight f (Script.microStep :: xs)) = r :=
  (run_succ k ((step_inFlight hw).trans hx)).trans hrun

/-- The foreground agent has nothing in flight and no word presented. -/
theorem run_hold (hw : s.cfg.wf = true) (hin : s.inputs = Script.microStep :: xs) (hidle : s.fg = .idle)
    (hrun : core.run k (s.begun xs) = r) : core.run (k + 1) s = r := by
  have hinput := input_of_cons hin
  have hbegin : s.beginStep = s.begun xs := by rw [State.beginStep, hin, List.tail_cons, State.begun]
  obtain ⟨-, -, -, -, hhold⟩ := stepRunsDecodedOperation s hw (by rw [hinput]; rfl)
  rw [hinput, hbegin] at hhold
  exact (run_succ k (hhold rfl hidle rfl)).trans hrun

theorem run_rxevt {b : Byte} (hw : s.cfg.wf = true) (harmed : s.rxie = true)
    (hx : exec (.rxevt b) (s.begun xs) = .next t) (hrun : core.run k t = r) :
    core.run (k + 1) (s.offered (Script.rxevt b :: xs)) = r := by
  obtain ⟨-, -, hrx, -⟩ := stepRunsDecodedOperation (s.offered (Script.rxevt b :: xs)) hw rfl
  exact (run_succ k ((hrx b rfl harmed rfl).trans hx)).trans hrun

theorem run_txevt (hw : s.cfg.wf = true) (harmed : s.txie = true)
    (hx : exec .txevt (s.begun xs) = .next t) (hrun : core.run k t = r) :
    core.run (k + 1) (s.offered (Script.txevt :: xs)) = r := by
  obtain ⟨-, -, -, htx, -⟩ := stepRunsDecodedOperation (s.offered (Script.txevt :: xs)) hw rfl
  exact (run_succ k ((htx rfl harmed rfl).trans hx)).trans hrun

/-- The micro-steps an operation did not need hold. -/
theorem run_holds (n : Nat) (hw : s.cfg.wf = true) (hidle : s.fg = .idle)
    (hin : s.inputs = List.replicate (n + 1) Script.microStep ++ xs) :
    core.run (n + 1) s = .next (s.begun xs) := by
  induction n generalizing s with
  | zero => exact run_hold hw hin hidle rfl
  | succ n ih => exact run_hold hw hin hidle (ih hw hidle rfl)

/-! ### One operation from a script -/

/-- The state after a TXENQ that found room (R100), as its script leaves it: `run_txenq_room`. -/
def State.enqueued (b : Byte) (s : State) : State :=
  { s with
    txBuf := s.txBuf.store s.txHead b
    txHead := inc s.cfg.tcap s.txHead
    txie := true
    fg := .idle
    rsp := s.rsp ++ [(encode (.txenq b), ⟨.ok, 0⟩)]
    out := { Strobes.quiet with fgRsp := some ⟨.ok, 0⟩ } }

theorem run_txenq_room (b : Byte) (hw : s.cfg.wf = true) (hidle : s.fg = .idle)
    (hh : s.txHead < s.cfg.tcap) (hroom : inc s.cfg.tcap s.txHead ≠ s.txTail) :
    core.run 6 (s.offered (Script.op (.txenq b) ++ xs)) = .next ((s.enqueued b).offered xs) := by
  refine run_present hw rfl hidle (fun _ => exec_txenq_idle b) ?_
  refine run_microStep (t := s) (g := .txenq (.e2 b s.txHead (inc s.cfg.tcap s.txHead))) hw rfl ?_
  refine run_microStep (t := s) (g := .txenq (.e3 b s.txHead (inc s.cfg.tcap s.txHead) s.txTail)) hw (if_neg hroom) ?_
  refine run_microStep (t := { s with txBuf := s.txBuf.store s.txHead b })
    (g := .txenq (.e4 b s.txHead (inc s.cfg.tcap s.txHead) s.txTail)) hw
    (txenqE3_inRange (s := s.inFlight _ _) hh) ?_
  refine run_microStep (t := { s with txBuf := s.txBuf.store s.txHead b, txHead := inc s.cfg.tcap s.txHead })
    (g := .txenq (.e5 b s.txHead (inc s.cfg.tcap s.txHead) s.txTail)) hw rfl ?_
  exact run_answer hw rfl rfl

/-- The state after an operation that only answered (R101, R106), as its script leaves it once the micro-steps it did
not need have passed. -/
def State.answered (w : OpWord) (st : Status) (s : State) : State :=
  { s with fg := .idle, rsp := s.rsp ++ [(w, ⟨st, 0⟩)], out := Strobes.quiet }

theorem run_txenq_full (b : Byte) (hw : s.cfg.wf = true) (hidle : s.fg = .idle)
    (hfull : inc s.cfg.tcap s.txHead = s.txTail) :
    core.run 6 (s.offered (Script.op (.txenq b) ++ xs)) =
      .next ((s.answered (encode (.txenq b)) .full).offered xs) := by
  refine run_present hw rfl hidle (fun _ => exec_txenq_idle b) ?_
  refine run_microStep (t := s) (g := .txenq (.e2 b s.txHead (inc s.cfg.tcap s.txHead))) hw rfl ?_
  exact run_answer hw (if_pos hfull) (run_holds 2 hw rfl rfl)

/-- The state after an RXDEQ that found a byte (R105), as its script leaves it: `run_rxdeq_queued`. -/
def State.dequeued (s : State) : State :=
  { s with
    rxTail := inc s.cfg.rcap s.rxTail
    fg := .idle
    rsp := s.rsp ++ [(encode .rxdeq, ⟨.ok, zextByte (s.rxSlot s.rxTail)⟩)]
    out := Strobes.quiet }

theorem run_rxdeq_queued (hw : s.cfg.wf = true) (hidle : s.fg = .idle) (ht : s.rxTail < s.cfg.rcap)
    (hqueued : s.rxHead ≠ s.rxTail) :
    core.run 6 (s.offered (Script.op .rxdeq ++ xs)) = .next (s.dequeued.offered xs) := by
  refine run_present hw rfl hidle (fun _ => exec_rxdeq_idle) ?_
  refine run_microStep (t := s) (g := .rxdeq (.q2 s.rxTail)) hw rfl ?_
  refine run_microStep (t := s) (g := .rxdeq (.q3 s.rxTail s.rxHead)) hw (if_neg hqueued) ?_
  refine run_microStep (t := s) (g := .rxdeq (.q4 s.rxTail s.rxHead (s.rxSlot s.rxTail))) hw
    (rxdeqQ3_inRange (s := s.inFlight _ _) ht) ?_
  exact run_answer hw rfl (run_holds 0 hw rfl rfl)

theorem run_rxdeq_empty (hw : s.cfg.wf = true) (hidle : s.fg = .idle) (hempty : s.rxHead = s.rxTail) :
    core.run 6 (s.offered (Script.op .rxdeq ++ xs)) = .next ((s.answered (encode .rxdeq) .empty).offered xs) := by
  refine run_present hw rfl hidle (fun _ => exec_rxdeq_idle) ?_
  refine run_microStep (t := s) (g := .rxdeq (.q2 s.rxTail)) hw rfl ?_
  exact run_answer hw (if_pos hempty) (run_holds 2 hw rfl rfl)

end Sys2Proof.Machine
end

section
/-! PROOFS. Filling and draining the buffers by scripts (70_reset_and_hazards): capacity (R206), order (R207), and empty
after drain (R208). -/

namespace Sys2Proof.Machine

variable {s : State} {xs : List Inputs} {k : Nat} {r : Host.Outcome State Fault Refusal}

/-! ### The events from a script -/

/-- The state after an RXEVT that found room (R121), as a script leaves it. -/
def State.stored (b : Byte) (s : State) : State :=
  { s with
    rxBuf := s.rxBuf.store s.rxHead b
    rxHead := inc s.cfg.rcap s.rxHead
    rxCount := countUp s.cfg.cw s.rxCount
    rxIn := s.rxIn ++ [b]
    out := { Strobes.quiet with rxRd := true, evCode := some (encode (.rxevt b)) } }

/-- The state after an RXEVT that found the buffer full (R122), as a script leaves it. -/
def State.dropped (b : Byte) (s : State) : State :=
  { s with
    rxCount := countUp s.cfg.cw s.rxCount
    rxIn := s.rxIn ++ [b]
    out := { Strobes.quiet with rxRd := true, evCode := some (encode (.rxevt b)) } }

/-- The state after a TXEVT that sent a byte (R125), as a script leaves it. -/
def State.sent (s : State) : State :=
  { s with
    txTail := inc s.cfg.tcap s.txTail
    txCount := countUp s.cfg.cw s.txCount
    txOut := s.txOut ++ [s.txSlot s.txTail]
    out := { Strobes.quiet with txWr := some (s.txSlot s.txTail), evCode := some (encode .txevt) } }

/-- The state after a TXEVT that found the buffer empty (R126), as a script leaves it. -/
def State.disarmed (s : State) : State :=
  { s with
    txie := false
    txCount := countUp s.cfg.cw s.txCount
    out := { Strobes.quiet with evCode := some (encode .txevt) } }

theorem run_rxevt_room {b : Byte} (hw : s.cfg.wf = true) (harmed : s.rxie = true) (hh : s.rxHead < s.cfg.rcap)
    (hroom : inc s.cfg.rcap s.rxHead ≠ s.rxTail) (hrun : core.run k ((s.stored b).offered xs) = r) :
    core.run (k + 1) (s.offered (Script.rxevt b :: xs)) = r :=
  run_rxevt hw harmed
    ((exec_rxevt_inRange (s := s.begun xs) b hh).trans (congrArg _ (received_of_room (s := s.begun xs) b hroom))) hrun

theorem run_rxevt_full {b : Byte} (hw : s.cfg.wf = true) (harmed : s.rxie = true)
    (hfull : inc s.cfg.rcap s.rxHead = s.rxTail) (hrun : core.run k ((s.dropped b).offered xs) = r) :
    core.run (k + 1) (s.offered (Script.rxevt b :: xs)) = r :=
  run_rxevt hw harmed
    ((exec_rxevt_full (s := s.begun xs) b hfull).trans (congrArg _ (received_of_full (s := s.begun xs) b hfull))) hrun

theorem run_txevt_queued (hw : s.cfg.wf = true) (harmed : s.txie = true) (ht : s.txTail < s.cfg.tcap)
    (hqueued : s.txTail ≠ s.txHead) (hrun : core.run k (s.sent.offered xs) = r) :
    core.run (k + 1) (s.offered (Script.txevt :: xs)) = r :=
  run_txevt hw harmed
    ((exec_txevt_inRange (s := s.begun xs) ht).trans (congrArg _ (transmitted_of_queued (s := s.begun xs) hqueued)))
    hrun

theorem run_txevt_empty (hw : s.cfg.wf = true) (harmed : s.txie = true) (hempty : s.txTail = s.txHead)
    (hrun : core.run k (s.disarmed.offered xs) = r) : core.run (k + 1) (s.offered (Script.txevt :: xs)) = r :=
  run_txevt hw harmed
    ((exec_txevt_empty (s := s.begun xs) hempty).trans (congrArg _ (transmitted_of_empty (s := s.begun xs) hempty)))
    hrun

/-! ### Live bytes and room -/

theorem rxLive_length (s : State) : s.rxLive.length = s.rxLevel := by
  rw [State.rxLive, List.length_map, liveSlots_length, State.rxLevel]

theorem txLive_length (s : State) : s.txLive.length = s.txLevel := by
  rw [State.txLive, List.length_map, liveSlots_length, State.txLevel]

theorem stored_rxLive (b : Byte) (hh : s.rxHead < s.cfg.rcap) (ht : s.rxTail < s.cfg.rcap)
    (hroom : inc s.cfg.rcap s.rxHead ≠ s.rxTail) : (s.stored b).rxLive = s.rxLive ++ [b] :=
  liveBytes_store_push .rx s.epoch b hh ht hroom

theorem enqueued_txLive (b : Byte) (hh : s.txHead < s.cfg.tcap) (ht : s.txTail < s.cfg.tcap)
    (hroom : inc s.cfg.tcap s.txHead ≠ s.txTail) : (s.enqueued b).txLive = s.txLive ++ [b] :=
  liveBytes_store_push .tx s.epoch b hh ht hroom

/-- Below `N - 1` live bytes there is room for one more (10_state R27, R28). -/
theorem rx_room (hh : s.rxHead < s.cfg.rcap) (ht : s.rxTail < s.cfg.rcap)
    (hlen : s.rxLive.length < s.cfg.rcap - 1) : inc s.cfg.rcap s.rxHead ≠ s.rxTail := by
  intro hfull
  have hlevel : s.rxLevel = s.cfg.rcap - 1 := (full_iff_level hh ht).1 hfull
  rw [rxLive_length] at hlen
  omega

theorem tx_room (hh : s.txHead < s.cfg.tcap) (ht : s.txTail < s.cfg.tcap)
    (hlen : s.txLive.length < s.cfg.tcap - 1) : inc s.cfg.tcap s.txHead ≠ s.txTail := by
  intro hfull
  have hlevel : s.txLevel = s.cfg.tcap - 1 := (full_iff_level hh ht).1 hfull
  rw [txLive_length] at hlen
  omega

/-! ### Filling and draining -/

theorem txenqs_cons (b : Byte) (bs : List Byte) :
    Script.txenqs (b :: bs) ++ xs = Script.op (.txenq b) ++ (Script.txenqs bs ++ xs) := by
  rw [Script.txenqs, List.flatMap_cons, List.append_assoc, Script.txenqs]

theorem dequeues_succ (n : Nat) :
    Script.dequeues (n + 1) ++ xs = Script.op .rxdeq ++ (Script.dequeues n ++ xs) := by
  rw [Script.dequeues, List.replicate_succ, List.flatten_cons, List.append_assoc, Script.dequeues]

/-- The answer of a successful TXENQ as the trace `rsp` records it. -/
def okEnqueue (b : Byte) : OpWord × Response := (encode (.txenq b), ⟨.ok, 0⟩)

/-- The answer of an RXDEQ that returns `b`, as the trace `rsp` records it. -/
def okDequeue (b : Byte) : OpWord × Response := (encode .rxdeq, ⟨.ok, zextByte b⟩)

/-- TXENQs that all find room queue their bytes and write nothing but the transmit buffer, its head and `txie`. -/
theorem run_txenqs (bs : List Byte) (hw : s.cfg.wf = true) (hidle : s.fg = .idle) (hh : s.txHead < s.cfg.tcap)
    (ht : s.txTail < s.cfg.tcap) (hlen : (s.txLive ++ bs).length ≤ s.cfg.tcap - 1) :
    ∃ m h o,
      core.run (6 * bs.length) (s.offered (Script.txenqs bs ++ xs)) =
        .next ({ s with
          txBuf := m
          txHead := h
          txie := s.txie || !bs.isEmpty
          fg := .idle
          rsp := s.rsp ++ bs.map okEnqueue
          out := o }.offered xs) ∧
      h < s.cfg.tcap ∧ { s with txBuf := m, txHead := h }.txLive = s.txLive ++ bs := by
  induction bs generalizing s with
  | nil =>
    refine ⟨s.txBuf, s.txHead, s.out, ?_, hh, (List.append_nil _).symm⟩
    rw [List.isEmpty_nil, Bool.not_true, Bool.or_false, List.map_nil, List.append_nil, ← hidle]
    rfl
  | cons b bs ih =>
    have hroom : inc s.cfg.tcap s.txHead ≠ s.txTail := by
      refine tx_room hh ht ?_
      rw [List.length_append, List.length_cons] at hlen
      omega
    have hlive := enqueued_txLive b hh ht hroom
    obtain ⟨m, h, o, hrun, hlt, hall⟩ := ih (s := s.enqueued b) hw rfl (inc_lt _ (Nat.zero_lt_of_lt hh)) ht
      (by rw [hlive, ← List.append_cons]; exact hlen)
    rw [hlive, ← List.append_cons] at hall
    refine ⟨m, h, o, ?_, hlt, hall⟩
    rw [txenqs_cons, List.length_cons, Nat.mul_succ, Nat.add_comm, run_add _ (run_txenq_room b hw hidle hh hroom), hrun,
      List.map_cons, List.append_cons, List.isEmpty_cons, Bool.not_false, Bool.or_true]
    rfl

/-- RXEVTs that all find room queue their bytes and write nothing but the receive buffer, its head and the count. -/
theorem run_injects (bs : List Byte) (hw : s.cfg.wf = true) (harmed : s.rxie = true) (hh : s.rxHead < s.cfg.rcap)
    (ht : s.rxTail < s.cfg.rcap) (hc : s.rxCount < 2 ^ s.cfg.cw)
    (hlen : (s.rxLive ++ bs).length ≤ s.cfg.rcap - 1) :
    ∃ m h o,
      core.run bs.length (s.offered (Script.inject bs ++ xs)) =
        .next ({ s with
          rxBuf := m
          rxHead := h
          rxCount := (s.rxCount + bs.length) % 2 ^ s.cfg.cw
          rxIn := s.rxIn ++ bs
          out := o }.offered xs) ∧
      h < s.cfg.rcap ∧ { s with rxBuf := m, rxHead := h }.rxLive = s.rxLive ++ bs := by
  induction bs generalizing s with
  | nil =>
    refine ⟨s.rxBuf, s.rxHead, s.out, ?_, hh, (List.append_nil _).symm⟩
    rw [List.length_nil, Nat.add_zero, Nat.mod_eq_of_lt hc, List.append_nil]
    rfl
  | cons b bs ih =>
    have hroom : inc s.cfg.rcap s.rxHead ≠ s.rxTail := by
      refine rx_room hh ht ?_
      rw [List.length_append, List.length_cons] at hlen
      omega
    have hlive := stored_rxLive b hh ht hroom
    obtain ⟨m, h, o, hrun, hlt, hall⟩ := ih (s := s.stored b) hw harmed (inc_lt _ (Nat.zero_lt_of_lt hh)) ht
      (countUp_lt _ _) (by rw [hlive, ← List.append_cons]; exact hlen)
    rw [hlive, ← List.append_cons] at hall
    refine ⟨m, h, o, run_rxevt_room hw harmed hh hroom (hrun.trans ?_), hlt, hall⟩
    have hcount : (countUp s.cfg.cw s.rxCount + bs.length) % 2 ^ s.cfg.cw =
        (s.rxCount + (b :: bs).length) % 2 ^ s.cfg.cw := by
      rw [countUp, Nat.mod_add_mod, List.length_cons, Nat.add_assoc, Nat.add_comm 1]
    rw [← hcount, List.append_cons]
    rfl

/-- As many RXDEQs as bytes queued answer them in order and leave the buffer empty. -/
theorem run_dequeues (bs : List Byte) (hw : s.cfg.wf = true) (hidle : s.fg = .idle) (hh : s.rxHead < s.cfg.rcap)
    (ht : s.rxTail < s.cfg.rcap) (hlive : s.rxLive = bs) :
    ∃ o,
      core.run (6 * bs.length) (s.offered (Script.dequeues bs.length ++ xs)) =
        .next ({ s with rxTail := s.rxHead, fg := .idle, rsp := s.rsp ++ bs.map okDequeue, out := o }.offered xs) := by
  induction bs generalizing s with
  | nil =>
    have hempty : s.rxHead = s.rxTail := by
      refine (level_eq_zero hh ht).1 ?_
      rw [← State.rxLevel, ← rxLive_length, hlive, List.length_nil]
    refine ⟨s.out, ?_⟩
    rw [List.map_nil, List.append_nil, ← hidle]
    exact congrArg (fun q : Nat => Host.Outcome.next ({ s with rxTail := q }.offered xs)) hempty.symm
  | cons b bs ih =>
    have hqueued : s.rxHead ≠ s.rxTail := by
      intro hempty
      rw [rxLive_of_empty hempty ht] at hlive
      cases hlive
    rw [rxLive_pop hh ht hqueued] at hlive
    obtain ⟨rfl, hrest⟩ := List.cons.inj hlive
    obtain ⟨o, hrun⟩ := ih (s := s.dequeued) hw rfl hh (inc_lt _ (Nat.zero_lt_of_lt ht)) hrest
    refine ⟨o, ?_⟩
    rw [List.length_cons, dequeues_succ, Nat.mul_succ, Nat.add_comm, run_add _ (run_rxdeq_queued hw hidle ht hqueued),
      hrun, List.map_cons, List.append_cons]
    rfl

/-- As many TXEVTs as bytes queued send them in order, and one more disarms the source (R126). -/
theorem run_drain (bs : List Byte) (hw : s.cfg.wf = true) (harmed : s.txie = true) (hh : s.txHead < s.cfg.tcap)
    (ht : s.txTail < s.cfg.tcap) (hlive : s.txLive = bs) :
    ∃ o,
      core.run (bs.length + 1) (s.offered (Script.drain (bs.length + 1))) =
        .next ({ s with
          txTail := s.txHead
          txie := false
          txOut := s.txOut ++ bs
          txCount := (s.txCount + (bs.length + 1)) % 2 ^ s.cfg.cw
          out := o }.offered []) := by
  induction bs generalizing s with
  | nil =>
    have hempty : s.txHead = s.txTail := by
      refine (level_eq_zero hh ht).1 ?_
      rw [← State.txLevel, ← txLive_length, hlive, List.length_nil]
    refine ⟨s.disarmed.out, run_txevt_empty hw harmed hempty.symm ?_⟩
    rw [List.append_nil]
    exact congrArg (fun q : Nat => Host.Outcome.next ({ s.disarmed with txTail := q }.offered [])) hempty.symm
  | cons b bs ih =>
    have hqueued : s.txTail ≠ s.txHead := by
      intro hempty
      rw [txLive_of_empty hempty.symm ht] at hlive
      cases hlive
    rw [State.txLive, liveSlots_pop hh ht hqueued.symm] at hlive
    obtain ⟨rfl, hrest⟩ := List.cons.inj hlive
    obtain ⟨o, hrun⟩ := ih (s := s.sent) hw harmed hh (inc_lt _ (Nat.zero_lt_of_lt ht)) hrest
    refine ⟨o, run_txevt_queued hw harmed ht hqueued (hrun.trans ?_)⟩
    have hcount : (countUp s.cfg.cw s.txCount + (bs.length + 1)) % 2 ^ s.cfg.cw =
        (s.txCount + (bs.length + 1 + 1)) % 2 ^ s.cfg.cw := by
      rw [countUp, Nat.mod_add_mod, Nat.add_assoc, Nat.add_comm 1]
    rw [List.length_cons, ← hcount, List.append_cons]
    rfl

/-! ### Capacity, order, and empty after drain -/

theorem run_offered {n : Nat} (h : s.inputs = xs) : core.run n s = core.run n (s.offered xs) := by
  rw [← h]
  rfl

theorem txenqs_concat (cs : List Byte) (b : Byte) :
    Script.txenqs (cs ++ [b]) = Script.txenqs cs ++ (Script.op (.txenq b) ++ []) := by
  rw [Script.txenqs, List.flatMap_append, List.flatMap_cons, List.flatMap_nil, Script.txenqs]

theorem inject_concat (cs : List Byte) (b : Byte) :
    Script.inject (cs ++ [b]) = Script.inject cs ++ [Script.rxevt b] := List.map_append

theorem dequeues_concat (n : Nat) :
    Script.dequeues (n + 1) = Script.dequeues n ++ (Script.op .rxdeq ++ []) := by
  rw [Script.dequeues, List.replicate_succ', List.flatten_append, List.flatten_cons, List.flatten_nil, Script.dequeues]

theorem exists_concat_of_length {bs : List Byte} {n : Nat} (h : bs.length = n) (hn : 0 < n) :
    ∃ cs b, bs = cs ++ [b] ∧ cs.length = n - 1 := by
  rcases List.eq_nil_or_concat bs with rfl | ⟨cs, b, rfl⟩
  · exact absurd h hn.ne
  · refine ⟨cs, b, List.concat_eq_append, ?_⟩
    rw [← h, List.length_concat, Nat.add_sub_cancel]

theorem rxLive_append_of_empty (hinv : s.InvParts) (hempty : s.rxHead = s.rxTail) (bs : List Byte) :
    s.rxLive ++ bs = bs := by
  rw [rxLive_of_empty hempty hinv.rx.tail_lt, List.nil_append]

theorem txLive_append_of_empty (hinv : s.InvParts) (hempty : s.txHead = s.txTail) (bs : List Byte) :
    s.txLive ++ bs = bs := by
  rw [txLive_of_empty hempty hinv.tx.tail_lt, List.nil_append]

/-- One slot stays free: of as many TXENQs as slots the last one is answered FULL. -/
theorem run_txenqs_capacity {bs : List Byte} (hinv : s.InvParts) (hidle : s.fg = .idle)
    (hempty : s.txHead = s.txTail) (hlen : bs.length = s.cfg.tcap) (hin : s.inputs = Script.txenqs bs) :
    ∃ t, core.run (6 * s.cfg.tcap) s = .next t ∧
      t.rsp.map (fun r => r.2.st) =
        s.rsp.map (fun r => r.2.st) ++ List.replicate (s.cfg.tcap - 1) .ok ++ [.full] ∧
      t.txLive = bs.take (s.cfg.tcap - 1) ∧ t.launched = s.launched := by
  obtain ⟨hh, ht, -⟩ := hinv.tx
  obtain ⟨cs, b, rfl, hcs⟩ := exists_concat_of_length hlen (Nat.zero_lt_of_lt ht)
  obtain ⟨m, h, o, hrun, hlt, hlive⟩ := run_txenqs (xs := Script.op (.txenq b) ++ []) cs hinv.wf hidle hh ht
    (by rw [txLive_append_of_empty hinv hempty]; exact hcs.le)
  rw [txLive_append_of_empty hinv hempty] at hlive
  have hfull : inc s.cfg.tcap h = s.txTail := by
    refine (full_iff_level hlt ht).2 ?_
    rw [← hcs, ← hlive, State.txLive, List.length_map, liveSlots_length]
  have hsteps : 6 * s.cfg.tcap = 6 * cs.length + 6 := by omega
  rw [hsteps, run_offered (hin.trans (txenqs_concat cs b)), run_add 6 hrun]
  refine ⟨_, run_txenq_full b hinv.wf rfl hfull, ?_, ?_, rfl⟩
  · rw [← hcs, ← List.map_const', List.append_assoc]
    simp [State.answered, State.offered, okEnqueue, Function.comp_def]
  · rw [← hcs, List.take_left']
    · exact hlive
    · rfl

/-- Of as many RXEVTs as slots the last one drops its byte and is counted like the others. -/
theorem run_injects_capacity {bs : List Byte} (hinv : s.InvParts) (harmed : s.rxie = true)
    (hempty : s.rxHead = s.rxTail) (hlen : bs.length = s.cfg.rcap) (hin : s.inputs = Script.inject bs) :
    ∃ t, core.run s.cfg.rcap s = .next t ∧
      t.rxLive = bs.take (s.cfg.rcap - 1) ∧ t.rxCount = (s.rxCount + s.cfg.rcap) % 2 ^ s.cfg.cw := by
  obtain ⟨hh, ht, -⟩ := hinv.rx
  obtain ⟨cs, b, rfl, hcs⟩ := exists_concat_of_length hlen (Nat.zero_lt_of_lt ht)
  obtain ⟨m, h, o, hrun, hlt, hlive⟩ := run_injects (xs := [Script.rxevt b]) cs hinv.wf harmed hh ht hinv.counters.1
    (by rw [rxLive_append_of_empty hinv hempty]; exact hcs.le)
  rw [rxLive_append_of_empty hinv hempty] at hlive
  have hfull : inc s.cfg.rcap h = s.rxTail := by
    refine (full_iff_level hlt ht).2 ?_
    rw [← hcs, ← hlive, State.rxLive, List.length_map, liveSlots_length]
  have hsteps : s.cfg.rcap = cs.length + 1 := by omega
  have hstart : core.run s.cfg.rcap s =
      core.run (cs.length + 1) (s.offered (Script.inject cs ++ [Script.rxevt b])) := by
    rw [← hsteps]
    exact run_offered (hin.trans (inject_concat cs b))
  rw [hstart, run_add 1 hrun]
  refine ⟨_, run_rxevt_full hinv.wf harmed hfull rfl, ?_, ?_⟩
  · rw [← hcs, List.take_left']
    · exact hlive
    · rfl
  · rw [hsteps, ← Nat.add_assoc]
    exact Nat.mod_add_mod ..

/-- Settles O53: the two scripts, and between them the TXEVT that takes the oldest byte and so frees its slot. -/
theorem capacityIsOneLessThanSlots : Obligations.CapacityIsOneLessThanSlots := by
  refine ⟨fun s bs hinv hidle hempty hlen hin => ?_, fun s hinv hqueued => ?_,
    fun s bs hinv harmed hempty hlen hin => ?_⟩
  · exact run_txenqs_capacity (State.inv_iff.1 hinv) hidle hempty hlen hin
  · obtain ⟨hw, ⟨-, -, hh, ht⟩, -⟩ := hinv
    obtain ⟨t, hx, rfl, hnotFull, -⟩ := txevtSendsOldestByte s ht hqueued
    exact ⟨_, hx, (level_pop hh ht hqueued.symm).symm, hnotFull hw hh⟩
  · exact run_injects_capacity (State.inv_iff.1 hinv) harmed hempty hlen hin

/-- Bytes injected into an empty buffer and dequeued as often are answered in order, and the buffer is empty again. -/
theorem run_injects_dequeues {bs : List Byte} (hinv : s.InvParts) (hidle : s.fg = .idle) (harmed : s.rxie = true)
    (hempty : s.rxHead = s.rxTail) (hlen : bs.length ≤ s.cfg.rcap - 1)
    (hin : s.inputs = Script.inject bs ++ (Script.dequeues bs.length ++ xs)) :
    ∃ t : State, core.run (7 * bs.length) s = .next (t.offered xs) ∧ t.cfg = s.cfg ∧ t.fg = .idle ∧
      t.rxHead = t.rxTail ∧ t.rsp = s.rsp ++ bs.map okDequeue := by
  obtain ⟨hh, ht, -⟩ := hinv.rx
  obtain ⟨m, h, o, hfill, hlt, hlive⟩ := run_injects (xs := Script.dequeues bs.length ++ xs) bs hinv.wf harmed hh ht
    hinv.counters.1 (by rwa [rxLive_append_of_empty hinv hempty])
  rw [rxLive_append_of_empty hinv hempty] at hlive
  obtain ⟨o', hdrain⟩ := run_dequeues (s := { s with
    rxBuf := m
    rxHead := h
    rxCount := (s.rxCount + bs.length) % 2 ^ s.cfg.cw
    rxIn := s.rxIn ++ bs
    out := o }) (xs := xs) bs hinv.wf hidle hlt ht hlive
  have hsteps : 7 * bs.length = bs.length + 6 * bs.length := by omega
  rw [hsteps, run_offered hin, run_add _ hfill]
  exact ⟨_, hdrain, rfl, rfl, rfl, rfl⟩

/-- Settles O54, with nothing offered after the script of `run_injects_dequeues`. -/
theorem receivedBytesComeOutInOrder : Obligations.ReceivedBytesComeOutInOrder := by
  intro s bs hinv hidle harmed hempty hlen hin
  obtain ⟨t, hrun, -, -, -, hrsp⟩ := run_injects_dequeues (xs := []) (State.inv_iff.1 hinv) hidle harmed hempty hlen
    (by rw [hin, List.append_nil])
  exact ⟨_, hrun, hrsp⟩

/-- Bytes enqueued into an empty buffer are sent in order, and one TXEVT more finds it empty. -/
theorem run_txenqs_drain {bs : List Byte} (hinv : s.InvParts) (hidle : s.fg = .idle)
    (harmed : s.txie = true ∨ bs ≠ []) (hempty : s.txHead = s.txTail) (hlen : bs.length ≤ s.cfg.tcap - 1)
    (hin : s.inputs = Script.txenqs bs ++ Script.drain (bs.length + 1)) :
    ∃ t, core.run (7 * bs.length + 1) s = .next t ∧ t.txHead = t.txTail ∧ t.txie = false ∧
      t.txOut = s.txOut ++ bs ∧ t.txCount = (s.txCount + (bs.length + 1)) % 2 ^ s.cfg.cw ∧
      t.launched = s.launched := by
  obtain ⟨hh, ht, -⟩ := hinv.tx
  obtain ⟨m, h, o, hfill, hlt, hlive⟩ := run_txenqs (xs := Script.drain (bs.length + 1)) bs hinv.wf hidle hh ht
    (by rwa [txLive_append_of_empty hinv hempty])
  rw [txLive_append_of_empty hinv hempty] at hlive
  have hstill : (s.txie || !bs.isEmpty) = true := by simpa using harmed
  obtain ⟨o', hdrain⟩ := run_drain (s := { s with
    txBuf := m
    txHead := h
    txie := s.txie || !bs.isEmpty
    fg := .idle
    rsp := s.rsp ++ bs.map okEnqueue
    out := o }) bs hinv.wf hstill hlt ht hlive
  have hsteps : 7 * bs.length + 1 = 6 * bs.length + (bs.length + 1) := by omega
  rw [hsteps, run_offered hin, run_add _ hfill]
  exact ⟨_, hdrain, rfl, rfl, rfl, rfl, rfl⟩

/-- Settles O55: after the receive script of O54 one RXDEQ more finds the buffer empty; the transmit script ends with
the idle TXEVT. -/
theorem buffersAreEmptyAfterDraining : Obligations.BuffersAreEmptyAfterDraining := by
  refine ⟨fun s bs hinv hidle harmed hempty hlen hin => ?_, fun s bs hinv hidle harmed hempty hlen hin => ?_⟩
  · have hparts := State.inv_iff.1 hinv
    rw [dequeues_concat] at hin
    obtain ⟨t, hrun, hcfg, htidle, htempty, hrsp⟩ := run_injects_dequeues hparts hidle harmed hempty hlen hin
    rw [run_add 6 hrun]
    refine ⟨_, run_rxdeq_empty (by rw [hcfg]; exact hparts.wf) htidle htempty, htempty, ?_⟩
    exact congrArg (fun rsp => rsp ++ [(encode .rxdeq, (⟨.empty, 0⟩ : Response))]) hrsp
  · exact run_txenqs_drain (State.inv_iff.1 hinv) hidle harmed hempty hlen hin

end Sys2Proof.Machine
end

section
/-! PROOFS. Arming and disarming (70_reset_and_hazards): the TXENQ that arms the source again (R210), and the idle-event
race (R198). -/

namespace Sys2Proof.Machine

/-! ### An operation's atomic steps, one by one -/

/-- One more atomic step at the end. -/
theorem uninterrupted_concat {s t : State} {i : Instr} {k : Nat} (h : uninterrupted i k s = .next t) :
    uninterrupted i (k + 1) s = exec i t := by
  induction k generalizing s with
  | zero =>
    obtain rfl := Host.Outcome.next.inj h
    cases hx : exec i s <;> simp only [uninterrupted, hx]
  | succ k ih =>
    cases hx : exec i s with
    | next u =>
      rw [uninterrupted_succ k hx] at h
      exact (uninterrupted_succ (k + 1) hx).trans (ih h)
    | fault e => simp only [uninterrupted, hx, reduceCtorEq] at h
    | refused e => simp only [uninterrupted, hx, reduceCtorEq] at h

/-- The state `k` atomic steps into a TXENQ that finds room, six of them being the whole operation (R100):
`uninterrupted_txenq_room`. -/
def State.enqueuing (b : Byte) (s : State) : Nat → State
  | 0 => s
  | 1 => s.setFg (.busy (.txenq (.e1 b)))
  | 2 => s.setFg (.busy (.txenq (.e2 b s.txHead (inc s.cfg.tcap s.txHead))))
  | 3 => s.setFg (.busy (.txenq (.e3 b s.txHead (inc s.cfg.tcap s.txHead) s.txTail)))
  | 4 => { s with txBuf := s.txBuf.store s.txHead b }.setFg
      (.busy (.txenq (.e4 b s.txHead (inc s.cfg.tcap s.txHead) s.txTail)))
  | 5 => { s with txBuf := s.txBuf.store s.txHead b, txHead := inc s.cfg.tcap s.txHead }.setFg
      (.busy (.txenq (.e5 b s.txHead (inc s.cfg.tcap s.txHead) s.txTail)))
  | _ => { s with
      txBuf := s.txBuf.store s.txHead b
      txHead := inc s.cfg.tcap s.txHead
      txie := true }.respond (encode (.txenq b)) .ok 0

theorem exec_enqueuing {s : State} (b : Byte) (hidle : s.fg = .idle) (hh : s.txHead < s.cfg.tcap)
    (hroom : inc s.cfg.tcap s.txHead ≠ s.txTail) {k : Nat} (hk : k < 6) :
    exec (.txenq b) (s.enqueuing b k) = .next (s.enqueuing b (k + 1)) := by
  match k with
  | 0 => exact exec_txenq_idle b hidle
  | 1 => exact exec_txenq_e1 rfl
  | 2 => exact exec_txenq_e2_room (s := s.enqueuing b 2) rfl hroom
  | 3 => exact exec_txenq_e3 (s := s.enqueuing b 3) rfl hh
  | 4 => exact exec_txenq_e4 rfl
  | 5 => exact exec_txenq_e5 rfl
  | k + 6 => omega

theorem uninterrupted_txenq_room {s : State} (b : Byte) (hidle : s.fg = .idle) (hh : s.txHead < s.cfg.tcap)
    (hroom : inc s.cfg.tcap s.txHead ≠ s.txTail) {k : Nat} (hk : k ≤ 6) :
    uninterrupted (.txenq b) k s = .next (s.enqueuing b k) := by
  induction k with
  | zero => rfl
  | succ k ih => exact (uninterrupted_concat (ih (by omega))).trans (exec_enqueuing b hidle hh hroom hk)

/-- Only E5 writes `txie` (R103). -/
theorem enqueuing_txie (b : Byte) (s : State) {k : Nat} (hk : k ≤ 5) : (s.enqueuing b k).txie = s.txie := by
  match k with
  | 0 | 1 | 2 | 3 | 4 | 5 => rfl
  | k + 6 => omega

theorem enqueuing_armed (b : Byte) {s : State} (harmed : s.txie = true) (k : Nat) :
    (s.enqueuing b k).txie = true := by
  match k with
  | 0 | 1 | 2 | 3 | 4 | 5 => exact harmed
  | k + 6 => rfl

/-- The points TXENQ `c` presented to a full buffer goes through: acceptance, E1, E2 with the answer FULL, and again. -/
structure State.FullLoop (c : Byte) (s : State) : Prop where
  full : inc s.cfg.tcap s.txHead = s.txTail
  point : s.fg = .idle ∨ s.fg = .busy (.txenq (.e1 c)) ∨
    s.fg = .busy (.txenq (.e2 c s.txHead (inc s.cfg.tcap s.txHead)))

theorem exec_fullLoop {s : State} {c : Byte} (h : s.FullLoop c) :
    ∃ t, exec (.txenq c) s = .next t ∧ t.FullLoop c ∧ t.txie = s.txie := by
  rcases h.point with hidle | he1 | he2
  · exact ⟨_, exec_txenq_idle c hidle, ⟨h.full, .inr (.inl rfl)⟩, rfl⟩
  · exact ⟨_, exec_txenq_e1 he1, ⟨h.full, .inr (.inr rfl)⟩, rfl⟩
  · exact ⟨_, exec_txenq_e2_full he2 h.full, ⟨h.full, .inl rfl⟩, rfl⟩

theorem uninterrupted_fullLoop {s : State} {c : Byte} (h : s.FullLoop c) (k : Nat) :
    ∃ t, uninterrupted (.txenq c) k s = .next t ∧ t.txie = s.txie := by
  induction k generalizing s with
  | zero => exact ⟨s, rfl, rfl⟩
  | succ k ih =>
    obtain ⟨u, hx, hu, hsame⟩ := exec_fullLoop h
    obtain ⟨t, hrun, ht⟩ := ih hu
    exact ⟨t, (uninterrupted_succ k hx).trans hrun, ht.trans hsame⟩

/-- An armed source stays armed through every step of a TXENQ, whether or not it finds room. -/
theorem uninterrupted_txenq_armed {s : State} (c : Byte) (hidle : s.fg = .idle) (hh : s.txHead < s.cfg.tcap)
    (harmed : s.txie = true) {k : Nat} (hk : k ≤ 6) :
    ∃ t, uninterrupted (.txenq c) k s = .next t ∧ t.txie = true := by
  by_cases hfull : inc s.cfg.tcap s.txHead = s.txTail
  · obtain ⟨t, hrun, ht⟩ := uninterrupted_fullLoop (c := c) ⟨hfull, .inl hidle⟩ k
    exact ⟨t, hrun, ht.trans harmed⟩
  · exact ⟨_, uninterrupted_txenq_room c hidle hh hfull hk, enqueuing_armed c harmed k⟩

/-- Settles O56: the idle TXEVT disarms and leaves the buffer empty, so that the TXENQ finds room and E5 arms. -/
theorem enqueueRearmsTransmitSourceOnce : Obligations.EnqueueRearmsTransmitSourceOnce := by
  rintro s b hw ⟨-, -, hh, -⟩ hidle hempty
  obtain ⟨-, hcap, -⟩ := (Config.wf_iff s.cfg).1 hw
  have hroom : inc s.cfg.tcap s.txHead ≠ s.txTail := hempty ▸ inc_ne_self hcap hh
  obtain ⟨s₁, hx, hoff, hidle₁, hh₁, hroom₁, hlaunched⟩ : ∃ s₁, exec .txevt s = .next s₁ ∧ s₁.txie = false ∧
      s₁.fg = .idle ∧ s₁.txHead < s₁.cfg.tcap ∧ inc s₁.cfg.tcap s₁.txHead ≠ s₁.txTail ∧ s₁.launched = s.launched :=
    ⟨_, txevtOnEmptyDisarms s hempty.symm, rfl, hidle, hh, hroom, rfl⟩
  refine ⟨s₁, hx, hoff, fun k hk => ?_, _, uninterrupted_txenq_room b hidle₁ hh₁ hroom₁ le_rfl, rfl, rfl, hlaunched,
    fun c k hk => ?_⟩
  · exact ⟨_, uninterrupted_txenq_room b hidle₁ hh₁ hroom₁ (by omega), (enqueuing_txie b s₁ hk).trans hoff⟩
  · exact uninterrupted_txenq_armed c rfl (inc_lt _ (Nat.zero_lt_of_lt hh₁)) rfl hk

/-- Settles O57, event by event: E4 publishes the byte, the first TXEVT sends it and the second finds the buffer empty,
E5 arms all the same, and the last TXEVT finds the buffer still empty. -/
theorem armedOverEmptyBufferAfterRace : Obligations.ArmedOverEmptyBufferAfterRace := by
  rintro s b h next u ⟨-, ⟨-, -, -, htt⟩, -, -, -, -, hfl⟩ hf hempty -
  obtain ⟨rfl, rfl, hroom, hslot⟩ := flightOk_e4 hfl hf
  have hnext : inc s.cfg.tcap s.txTail = inc s.cfg.tcap s.txHead := by rw [hempty]
  have hbyte : s.txSlot s.txTail = b := hempty ▸ Memory.byteAt_of_slot? .tx s.epoch hslot
  have hcount : countUp s.cfg.cw (countUp s.cfg.cw (countUp s.cfg.cw s.txCount)) = (s.txCount + 3) % 2 ^ s.cfg.cw := by
    simp only [countUp, Nat.mod_add_mod, Nat.add_assoc]
  have hpublished := exec_txenq_e4 hf
  obtain ⟨s₂, hsent, rfl, -⟩ := txevtSendsOldestByte ({ s with txHead := inc s.cfg.tcap s.txHead }.setFg
    (.busy (.txenq (.e5 b s.txHead (inc s.cfg.tcap s.txHead) u)))) htt hroom.symm
  refine ⟨_, _, _, _, _, hpublished, hsent, txevtOnEmptyDisarms _ hnext, exec_txenq_e5 rfl, txevtOnEmptyDisarms _ hnext,
    rfl, rfl, rfl, hnext.symm, ?_, rfl, ?_, hcount⟩
  · rw [← encode_txenq]
    rfl
  · rw [← hbyte]
    rfl

end Sys2Proof.Machine
end

section
/-! PROOFS. Sample words of the decode table (95_test_vectors section 2.6): what they decode to, and which reason the
foreground port gives for a reserved word (R85, R86). -/

namespace Sys2Proof.Machine

/-- The foreground port has one reason for each word it takes for Illegal. -/
theorem reasonFg_of_decode_foreground_error {w : OpWord} {e : DecodeError} (h : decode .foreground w = .error e) :
    reasonFg w = e := by
  simp only [decode, decodeFg] at h
  split_ifs at h
  exact Except.error.inj h

/-- A word R85 or R86 reserves on the foreground port decodes to the reason `reasonFg` names. -/
theorem decode_foreground_eq_reasonFg_of_reserved {w : OpWord}
    (h : w.toNat / 256 ∈ [0x0, 0x6, 0x7] ∨ (w.toNat / 256 ∈ [0x2, 0x3, 0x4, 0x5] ∧ w.toNat % 256 ≠ 0) ∨
      w.getLsbD 11 = true) : decode .foreground w = .error (reasonFg w) := by
  obtain ⟨e, he⟩ := decode_foreground_of_reserved h
  rw [he, reasonFg_of_decode_foreground_error he]

/-- Settles O2: the first five words are their operations' encodings; the last three are reserved, for being an event
word, for the operand of RXDEQ and for the opcode 0x7. -/
theorem sampleWordsDecode : Obligations.SampleWordsDecode := by
  refine ⟨decode_encode (.txenq 0x41#8), decode_encode .rxdeq, decode_encode .setup, decode_encode (.rxevt 0x31#8),
    decode_encode .txevt, ?_, ?_, ?_⟩
  · exact decode_foreground_eq_reasonFg_of_reserved (.inr (.inr rfl))
  · exact decode_foreground_eq_reasonFg_of_reserved (.inr (.inl (by decide)))
  · exact decode_foreground_eq_reasonFg_of_reserved (.inl (by decide))

end Sys2Proof.Machine
end
